-- ==== Sys2Proof/Word.lean ====
section
/-!
DEFINITION. The words of the T1240: the eight data bits of a unit, the indices of section 5.2 of
00_scope.md, and the 35 units of a site table image.
-/

namespace Sys2Proof

/-- The eight data bits of a unit (R135). -/
abbrev Byte := BitVec 8

/-- A car index, equal to the car port number (00_scope.md, section 5.2). -/
abbrev CarIx := Fin 12

/-- A feeder index (00_scope.md, section 5.2). -/
abbrev FeederIx := Fin 4

/-- A reserve entry number (R20). -/
abbrev EntryIx := Fin 8

/-- A site table image: 35 units (R153). -/
abbrev Image := Vector Byte 35

/-- Every car index, lowest first. -/
def allCars : List CarIx := [0, 1, 2, 3, 4, 5, 6, 7, 8, 9, 10, 11]

/-- Every feeder index, lowest first. -/
def allFeeders : List FeederIx := [0, 1, 2, 3]

/-- Every reserve entry number, lowest first. -/
def allEntries : List EntryIx := [0, 1, 2, 3, 4, 5, 6, 7]

/-- Division rounded up, for the stages that R5 rounds up. -/
def ceilDiv (a b : Nat) : Nat := (a + b - 1) / b

end Sys2Proof
end

