-- ==== Sys2Proof/Syntax.lean ====
section
/-!
DEFINITION. The commands of the T1240: one constructor for each row of spec/opcode_table.json.
-/

namespace Sys2Proof

/-- One of the fourteen serial ports (00_scope.md, section 1.3). -/
inductive Port where
  | car (c : CarIx)
  | supply
  | panel
  deriving DecidableEq, Repr

/-- The units of a request that arrive together on its port. A request survives a pause (R139), so
its units may come in several commands: the first with `opened`, the others with `resumed`. -/
inductive Arrival where
  /-- The request's opcode unit completes, then these argument units. -/
  | opened (args : List Byte)
  /-- These argument units complete; their opcode unit came in an earlier command. -/
  | resumed (args : List Byte)
  deriving DecidableEq, Repr

/-- The argument units of an arrival. -/
def Arrival.args : Arrival → List Byte
  | .opened a => a
  | .resumed a => a

/-- The commands: the part's steps, each whole and indivisible (95_what_each_step_holds.md). -/
inductive Instr where
  /-- TRIP (R85): direction, load. -/
  | trip (c : CarIx) (u : Arrival)
  /-- WITHDRAW (R91). -/
  | withdraw (c : CarIx)
  /-- AT_SPEED (R70). -/
  | atSpeed (c : CarIx)
  /-- START_FAIL (R71). -/
  | startFail (c : CarIx)
  /-- STOPPED (R75). -/
  | stopped (c : CarIx)
  /-- STATE (R47): status. -/
  | state (c : CarIx) (u : Arrival)
  /-- PROFILE (R44): the opcode unit. -/
  | profile (c : CarIx)
  /-- PROFILE_FIELD_LATCH (R45): the argument unit or units of one field. -/
  | profileFieldLatch (c : CarIx) (units : List Byte)
  /-- READ_CAR (R150). -/
  | readCar (c : CarIx)
  /-- SUPPLY (R97): supply state. -/
  | supply (u : Arrival)
  /-- OFFER (R18): the opcode unit. -/
  | offer
  /-- OFFER_FIELD_LATCH (R19): the argument units of one field. -/
  | offerFieldLatch (units : List Byte)
  /-- RECOVERED (R77). -/
  | recovered
  /-- READ_SUPPLY (R120). -/
  | readSupply
  /-- RESERVE (R21): entry, amount in two units. -/
  | reserve (u : Arrival)
  /-- GATE_CLAIM (R78): entry. -/
  | gateClaim (u : Arrival)
  /-- GATE_RELEASE (R80). -/
  | gateRelease
  /-- SELECT (R113): count, then the indices. -/
  | select (u : Arrival)
  /-- INCLUDE (R59): car index, inclusion code. -/
  | includeCar (u : Arrival)
  /-- RELEASE_CAR (R58): car index. -/
  | releaseCar (u : Arrival)
  /-- SITE_WRITE (R155): the 35 units of an image. -/
  | siteWrite (u : Arrival)
  /-- SITE_READ (R158). -/
  | siteRead
  /-- READ_ACCOUNT (R40). -/
  | readAccount
  /-- READ_PLAN (R151). -/
  | readPlan
  /-- READ_NOTICES (R145). -/
  | readNotices (p : Port)
  /-- READ_IDENT (R147). -/
  | readIdent (p : Port)
  /-- UNKNOWN_OPCODE (R137): an opcode unit whose code names no request of the port. -/
  | unknownOpcode (p : Port) (code : Byte)
  /-- SURPLUS_UNIT (R138): an argument unit with neither request nor reply on the port. -/
  | surplusUnit (p : Port) (data : Byte)
  /-- REPLY_UNIT_SERVED (R136): an argument unit while a reply is served. -/
  | replyUnitServed (p : Port) (data : Byte)
  /-- UNIT_CUT (R135): these bits of a unit arrive, then SELn rises. -/
  | unitCut (p : Port) (bits : List Bool)
  /-- CAR_LINK_TIMEOUT (R50). -/
  | carLinkTimeout (c : CarIx)
  /-- SUPPLY_LINK_TIMEOUT (R118). -/
  | supplyLinkTimeout
  /-- PANEL_LINK_TIMEOUT (R119). -/
  | panelLinkTimeout
  /-- SETTLE_EXPIRY (R99). -/
  | settleExpiry
  /-- RETURN_TIMER_EXPIRY (R116). -/
  | returnTimerExpiry
  /-- RECALL_SUPERVISION_EXPIRY (R109). -/
  | recallSupervisionExpiry (c : CarIx)
  /-- START_WINDOW_EXPIRY (R73). -/
  | startWindowExpiry
  /-- PANEL_WINDOW_EXPIRY (R81). -/
  | panelWindowExpiry
  /-- RECOVERY_EXPIRY (R77). -/
  | recoveryExpiry
  /-- FAIRNESS_EXPIRY (R82). -/
  | fairnessExpiry
  /-- HEAD_AGE_EXPIRY (R89). -/
  | headAgeExpiry
  /-- SHED_SUPERVISION_EXPIRY (R129): of the victim entry of this car. -/
  | shedSupervisionExpiry (c : CarIx)
  /-- STORE_PROGRAMMING_END (R156). -/
  | storeProgrammingEnd
  /-- RESET (R152): RST goes low, or power comes on. -/
  | reset
  /-- RESET_RELEASE (R160): RST goes high; the levels of CARSEL[1:0] and SINGLE (true is active). -/
  | resetRelease (carsel : BitVec 2) (single : Bool)
  deriving DecidableEq, Repr

end Sys2Proof
end

