-- ==== Sys2Proof/Decode.lean ====
section
/-!
DEFINITION. The commands that words spell. No row of spec/opcode_table.json gives bits (every row's
"fields" is empty and none has "fixed"), so no word spells a command (log 21). The codes of the ports'
opcode units are R148's, in Machine/Operands.lean.
-/

namespace Sys2Proof

/-- The command a word of `nbits` bits spells by the table: none, since no row gives bits. -/
def decodeTableWord (_nbits _w : Nat) : Option Instr := none

end Sys2Proof
end

