-- ==== Sys2Proof/Config.lean ====
section
/-!
DEFINITION. What the spec leaves open and nothing in the model may fix: each is a constant with no
body, so a claim holds whatever it is.
-/

namespace Sys2Proof

/-- Free value: where the spec allows either of two orders inside one command, whether the first
named is taken. Applied to the count of free values drawn so far. R35, R39, R76 (log 5, 6). -/
opaque Config.firstOrder : Nat → Bool

/-- Free value: which of several timers that are due together expires first (log 4). -/
opaque Config.expiryPick : Nat → Nat

/-- Free value: whether a unit of a store whose write was cut is the new one, by the count of free values
drawn and the number of the unit (R157, log 10). -/
opaque Config.tornUnit : Nat → Nat → Bool

/-- Free value: the check word that a cut write leaves, but for its matching the units (R157, log 10). -/
opaque Config.tornCheck : Nat → BitVec 16

/-- The 16-bit number the part forms over the 35 units of an image; the spec gives its width and not
its formula (R154; log 9). -/
opaque Config.checkWord : Image → BitVec 16

end Sys2Proof
end

