-- ==== Sys2Proof/Machine/Names.lean ====
section
/-!
DEFINITION. The named values of the spec: phases, roles, trip states, gate states, outcomes, verdicts,
notice kinds and requests, as sections 4.1 to 4.4 of 00_scope.md and the chapters give them.
-/

namespace Sys2Proof.Machine

/-- The phase of the Outage Sequencer (00_scope.md, section 4.1). -/
inductive Phase where
  | start | mains | outage | recall | service | returning
  deriving DecidableEq, Repr

/-- The role of a car record (00_scope.md, section 4.2). -/
inductive Role where
  | free | held | recall | parked | service | unavailable | lost | absent
  deriving DecidableEq, Repr

/-- The state of a trip (00_scope.md, section 4.3). -/
inductive TripState where
  | none | waiting | starting | running
  deriving DecidableEq, Repr

/-- The purpose of a trip, after the role under which it was requested (R83). -/
inductive Purpose where
  | recall | service
  deriving DecidableEq, Repr

/-- The direction of a trip (R3). -/
inductive Direction where
  | up | down
  deriving DecidableEq, Repr

/-- The kind of a trip (R10). -/
inductive Kind where
  | motoring | regen
  deriving DecidableEq, Repr

/-- The gate states (R64). -/
inductive GateState where
  | closed | opened | carStart | panelStart | recovery
  deriving DecidableEq, Repr

/-- Who holds the start gate (R64). -/
inductive Holder where
  | none
  | car (c : CarIx)
  | panel
  deriving DecidableEq, Repr

/-- The state of a port's link (R50, R146). -/
inductive Link where
  | silent | up | lost
  deriving DecidableEq, Repr

/-- A car's reported position (R47). -/
inductive Position where
  | atRecall | atLanding | between
  deriving DecidableEq, Repr

/-- A car's reported motion (R47). -/
inductive Motion where
  | still | moving
  deriving DecidableEq, Repr

/-- The supply states of a SUPPLY (R97). -/
inductive SupplyState where
  | mains | genStarting | genReady | retransfer | genLost
  deriving DecidableEq, Repr

/-- The outcomes a port records (R142). -/
inductive ReqOutcome where
  | none | accepted | abandoned | unknown | notRequired | busy | wrongPhase | notPermitted
  | noCapacity | step | range
  deriving DecidableEq, Repr

/-- The reasons of a refused TRIP (R88). -/
inductive RefuseReason where
  | wrongPhase | notPermitted | busy | step | noCapacity
  deriving DecidableEq, Repr

/-- The reasons of a dropped entry (R88). -/
inductive DropReason where
  | step | noCapacity | role | link | phase
  deriving DecidableEq, Repr

/-- The verdict of a trip record (R88). -/
inductive Verdict where
  | none
  | granted
  | refused (r : RefuseReason)
  | dropped (r : DropReason)
  deriving DecidableEq, Repr

/-- The overcommit state (R37). -/
inductive Overcommit where
  | none | holding
  deriving DecidableEq, Repr

/-- Transfer clearance (R116). -/
inductive Clearance where
  | notClear | clear
  deriving DecidableEq, Repr

/-- The selection mode (R113). -/
inductive SelMode where
  | automatic | manual
  deriving DecidableEq, Repr

/-- The state of the Shed Controller (R121). -/
inductive ShedState where
  | idle | active
  deriving DecidableEq, Repr

/-- The kind of a victim entry (R126, R128). -/
inductive VictimKind where
  | capacity | reverse
  deriving DecidableEq, Repr

/-- The standing of a victim entry (R126, R129). -/
inductive Standing where
  | counting | lapsed
  deriving DecidableEq, Repr

/-- The site state (R154). -/
inductive SiteState where
  | default | valid
  deriving DecidableEq, Repr

/-- The store state (R154). -/
inductive StoreState where
  | idle | programming | awaitingActivation
  deriving DecidableEq, Repr

/-- The service class of a car (00_scope.md, section 4.5). -/
inductive CarClass where
  | a | b | c
  deriving DecidableEq, Repr

/-- The notice kinds of a car port, in the order of their numbers (R144). -/
inductive CarNotice where
  | phase | recallCall | permit | refused | dropped | shed | park | selected | excluded | protocol
  deriving DecidableEq, Repr

/-- The notice kinds of the supply port, in the order of their numbers (R144). -/
inductive SupplyNotice where
  | phase | clear | overcommit | overEnd | panelSilent | unpermittedMotion | protocol
  deriving DecidableEq, Repr

/-- The notice kinds of the panel port, in the order of their numbers (R144). -/
inductive PanelNotice where
  | phase | overcommit | overEnd | shedOverdue | carLost | recallFailed | recallDone | startOverdue
  | panelGrant | unclearedTransfer | returnForced | unpermittedMotion | siteInvalid | supplySilent
  | storeDone | protocol
  deriving DecidableEq, Repr

/-- The requests of R148. -/
inductive Request where
  | readNotices | readIdent
  | trip | withdraw | atSpeed | startFail | stopped | state | profile | readCar
  | supply | offer | recovered | readSupply
  | reserve | gateClaim | gateRelease | select | includeCar | releaseCar | siteWrite | siteRead
  | readAccount | readPlan
  deriving DecidableEq, Repr

end Sys2Proof.Machine
end

