-- ==== Sys2Proof/Machine/Operands.lean ====
section
/-!
DEFINITION. How units are read: request codes and argument counts (R148), time codes (R1), two-unit
numbers (00_scope.md, section 5.5), the STATE unit, and the site table image with its validation
(R153, R155, R158).
-/

namespace Sys2Proof.Machine

/-! ## Requests -/

/-- The code of a request's opcode unit (R148). -/
def Request.code : Request → Byte
  | .readNotices => 0x01
  | .readIdent => 0x02
  | .trip => 0x10
  | .withdraw => 0x11
  | .atSpeed => 0x12
  | .startFail => 0x13
  | .stopped => 0x14
  | .state => 0x18
  | .profile => 0x19
  | .readCar => 0x1C
  | .supply => 0x20
  | .offer => 0x21
  | .recovered => 0x22
  | .readSupply => 0x2C
  | .reserve => 0x30
  | .gateClaim => 0x31
  | .gateRelease => 0x32
  | .select => 0x33
  | .includeCar => 0x34
  | .releaseCar => 0x35
  | .siteWrite => 0x38
  | .siteRead => 0x39
  | .readAccount => 0x3C
  | .readPlan => 0x3D

/-- The codes common to all ports (R148). -/
def commonRequests : List Request := [.readNotices, .readIdent]

/-- The requests of a car port's own type (R148). -/
def carRequests : List Request :=
  [.trip, .withdraw, .atSpeed, .startFail, .stopped, .state, .profile, .readCar]

/-- The requests of the supply port's own type (R148). -/
def supplyRequests : List Request := [.supply, .offer, .recovered, .readSupply]

/-- The requests of the panel port's own type (R148). -/
def panelRequests : List Request :=
  [.reserve, .gateClaim, .gateRelease, .select, .includeCar, .releaseCar, .siteWrite, .siteRead,
    .readAccount, .readPlan]

/-- The requests a port takes: those of its type and the common ones (R137). -/
def requestsOf : Port → List Request
  | .car _ => commonRequests ++ carRequests
  | .supply => commonRequests ++ supplyRequests
  | .panel => commonRequests ++ panelRequests

/-- The request a code names on a port, if any (R137). -/
def Request.ofCode (p : Port) (code : Byte) : Option Request :=
  (requestsOf p).find? (fun r => r.code == code)

/-- Whether a request is a read (section 8.3). -/
def Request.isRead : Request → Bool
  | .readNotices | .readIdent | .readCar | .readSupply | .siteRead | .readAccount | .readPlan => true
  | _ => false

/-- How many argument units a request takes, given those it has so far: SELECT takes its count unit
and as many units as the count clamped to 12 (R138, R148). -/
def Request.argUnits (r : Request) (args : List Byte) : Nat :=
  match r with
  | .trip => 2
  | .state => 1
  | .profile => 8
  | .supply => 1
  | .offer => 6
  | .reserve => 3
  | .gateClaim => 1
  | .select =>
    match args with
    | [] => 1
    | n :: _ => 1 + min 12 n.toNat
  | .includeCar => 2
  | .releaseCar => 1
  | .siteWrite => 35
  | _ => 0

/-! ## Numbers and codes -/

/-- A number in two units, most significant first (00_scope.md, section 5.5). -/
def pairOf (hi lo : Byte) : Nat := hi.toNat * 256 + lo.toNat

/-- An argument unit by its place; a place not yet filled reads 0 and no rule reads one. -/
def argAt (args : List Byte) (i : Nat) : Byte := args.getD i 0

/-- The unit a selector names, in tenths of a second (R1). -/
def timeUnit : Nat → Nat
  | 0 => 1
  | 1 => 10
  | 2 => 100
  | _ => 600

/-- The duration a time code names, in tenths of a second: bits 4 to 0 count, bits 6 and 5 the unit
selector, bit 7 ignored (R1, R148). -/
def timeCode (u : Byte) : Nat :=
  ((u.extractLsb' 0 5).toNat + 1) * timeUnit (u.extractLsb' 5 2).toNat

/-- A supervision limit: 2 × (m + 1) × the typical time (00_scope.md, section 5.4). -/
def superviseLimit (m typical : Nat) : Nat := 2 * (m + 1) * typical

/-- A value held between two bounds (R18, R45). -/
def clamp (lo hi v : Nat) : Nat := max lo (min hi v)

/-- The direction code of a TRIP; a code that names neither gives none (R3, R148). -/
def directionOf (u : Byte) : Option Direction :=
  if u = 0x01 then some .up else if u = 0x02 then some .down else none

/-- The supply state code of a SUPPLY (R97, R148). -/
def supplyStateOf (u : Byte) : Option SupplyState :=
  if u = 0x01 then some .mains
  else if u = 0x02 then some .genStarting
  else if u = 0x03 then some .genReady
  else if u = 0x04 then some .retransfer
  else if u = 0x05 then some .genLost
  else none

/-- The inclusion code that excludes (R59, R148). -/
def excludeCode : Byte := 0x5A

/-- A car index unit: none when above 11. -/
def carIxOf (u : Byte) : Option CarIx :=
  if h : u.toNat < 12 then some ⟨u.toNat, h⟩ else none

/-- A reserve entry unit: none when above 7. -/
def entryIxOf (u : Byte) : Option EntryIx :=
  if h : u.toNat < 8 then some ⟨u.toNat, h⟩ else none

/-! ## The STATE unit (R47, R148) -/

/-- Position, bits 7 and 6; another code is read BETWEEN. -/
def positionOf (u : Byte) : Position :=
  match (u.extractLsb' 6 2).toNat with
  | 1 => .atRecall
  | 2 => .atLanding
  | _ => .between

/-- Occupied, bits 5 and 4; another code is read yes. -/
def occupiedOf (u : Byte) : Bool :=
  match (u.extractLsb' 4 2).toNat with
  | 1 => false
  | _ => true

/-- Available, bits 3 and 2; another code is read no. -/
def availableOf (u : Byte) : Bool :=
  match (u.extractLsb' 2 2).toNat with
  | 2 => true
  | _ => false

/-- Motion, bits 1 and 0; another code is read MOVING. -/
def motionOf (u : Byte) : Motion :=
  match (u.extractLsb' 0 2).toNat with
  | 1 => .still
  | _ => .moving

/-! ## The site table image (R153) -/

/-- Unit `i` of an image. -/
def unitAt (t : Image) (i : Nat) : Byte := t.toList.getD i 0

/-- Unit 1, the configured car count. -/
def carCount (t : Image) : Nat := (unitAt t 1).toNat

/-- The class of a car, bits 5 and 4 of its unit; code 00 names none. -/
def classOf (t : Image) (c : CarIx) : Option CarClass :=
  match ((unitAt t (2 + c.val)).extractLsb' 4 2).toNat with
  | 1 => some .a
  | 2 => some .b
  | 3 => some .c
  | _ => none

/-- The feeder of a car, bits 1 and 0 of its unit. -/
def feederOf (t : Image) (c : CarIx) : FeederIx :=
  ((unitAt t (2 + c.val)).extractLsb' 0 2).toFin

/-- Unit 14, the class rank permutation. -/
def permutation (t : Image) : Nat := (unitAt t 14).toNat

/-- Units 15 to 22, the ratings of the feeders in kW. -/
def ratingOf (t : Image) (f : FeederIx) : Nat :=
  pairOf (unitAt t (15 + 2 * f.val)) (unitAt t (16 + 2 * f.val))

/-- Unit 23. -/
def krec (t : Image) : Nat := (unitAt t 23).toNat

/-- Unit 24. -/
def nsel (t : Image) : Nat := (unitAt t 24).toNat

/-- Unit 25, bit 0: bypass. -/
def bypass (t : Image) : Bool := (unitAt t 25).getLsbD 0

/-- Tsettle, in tenths of a second (units 26 to 33 hold the time codes). -/
def tSettle (t : Image) : Nat := timeCode (unitAt t 26)

/-- Trec. -/
def tRec (t : Image) : Nat := timeCode (unitAt t 27)

/-- Tstart. -/
def tStart (t : Image) : Nat := timeCode (unitAt t 28)

/-- Tpstart. -/
def tPstart (t : Image) : Nat := timeCode (unitAt t 29)

/-- Tage. -/
def tAge (t : Image) : Nat := timeCode (unitAt t 30)

/-- Tlink. -/
def tLink (t : Image) : Nat := timeCode (unitAt t 31)

/-- Tret. -/
def tRet (t : Image) : Nat := timeCode (unitAt t 32)

/-- Tfair. -/
def tFair (t : Image) : Nat := timeCode (unitAt t 33)

/-- Unit 34, the supervision multiplier m. -/
def multiplier (t : Image) : Nat := (unitAt t 34).toNat

/-- The rank order of the classes, first-ranked first (R84's table). -/
def rankOrder : Nat → List CarClass
  | 0 => [.a, .b, .c]
  | 1 => [.a, .c, .b]
  | 2 => [.b, .a, .c]
  | 3 => [.b, .c, .a]
  | 4 => [.c, .a, .b]
  | _ => [.c, .b, .a]

/-- The rank of a car's class, 0 for the first-ranked. A car of no class ranks last; validation keeps
every configured car in a class (log 26). -/
def rankOf (t : Image) (c : CarIx) : Nat :=
  match classOf t c with
  | some k => (rankOrder (permutation t)).idxOf k
  | none => 3

/-- The strapped car count that CARSEL[1:0] gives (R159). -/
def strappedCount (carsel : BitVec 2) : Nat :=
  match carsel.toNat with
  | 0 => 12
  | 1 => 8
  | 2 => 6
  | _ => 4

/-- The single-car defaults in image form, for a strapped count (R158, R161). -/
def defaultImage (strapped : Nat) : Image :=
  #v[1, BitVec.ofNat 8 strapped,
    0x30, 0x30, 0x30, 0x30, 0x30, 0x30, 0x30, 0x30, 0x30, 0x30, 0x30, 0x30,
    0, 0, 0, 0, 0, 0, 0, 0, 0, 1, 1, 0,
    0x29, 0x24, 0x27, 0x41, 0x60, 0x22, 0x61, 0x2E, 1]

/-- An image of 35 zero units. -/
def zeroImage : Image := Vector.replicate 35 0

/-- The image that 35 argument units carry (R153, R155). -/
def imageOf (args : List Byte) : Image := Vector.ofFn (fun i : Fin 35 => argAt args i.val)

/-- The whole-image validation against the image itself and a strapped count (R155, R160). -/
def validImage (t : Image) (strapped : Nat) : Bool :=
  decide ((unitAt t 0).toNat = 1 ∧ 1 ≤ carCount t ∧ carCount t ≤ strapped ∧
    (∀ c ∈ allCars, c.val < carCount t →
      (classOf t c).isSome ∧ ratingOf t (feederOf t c) ≠ 0) ∧
    (∀ f ∈ allFeeders, ratingOf t f ≤ 4095) ∧
    permutation t ≤ 5 ∧ 1 ≤ krec t ∧ krec t ≤ 4 ∧ nsel t ≤ carCount t ∧ multiplier t ≤ 7)

end Sys2Proof.Machine
end

