-- ==== Sys2Proof/Machine/Blocks.lean ====
section
/-!
DEFINITION. The records of the blocks (00_scope.md, section 2.1) as plain data, each with its value
after reset.
-/

namespace Sys2Proof.Machine

/-- A running timer: the tick at which it started and how long it runs, in tenths of a second. -/
structure Running where
  start : Nat
  duration : Nat
  deriving DecidableEq, Repr

/-- A timer: stopped (none) or running (log 31). -/
abbrev Timer := Option Running

/-! ## Car records (chapter 3) -/

/-- A car's profile (section 3.2). Tland and Trun are held in tenths of a second. -/
structure Profile where
  pr : Nat
  b : Nat
  f : Nat
  a : Nat
  g : Nat
  tland : Nat
  trun : Nat
  deriving DecidableEq, Repr

/-- A trip record (section 3.1, R16, R83, R88). -/
structure Trip where
  state : TripState
  purpose : Option Purpose
  direction : Direction
  load : Nat
  kind : Kind
  s : Nat
  n : Nat
  ret : Nat
  stamp : Option Nat
  shedOrdered : Bool
  startOverdue : Bool
  recallOverdue : Bool
  verdict : Verdict
  deriving DecidableEq, Repr

/-- A car record (section 3.1). `configured` is not held: it is the car index below the active table's
car count (R41). -/
structure CarRecord where
  link : Link
  linkTimer : Timer
  profile : Profile
  position : Position
  occupied : Bool
  available : Bool
  motion : Motion
  included : Bool
  recallFailed : Bool
  powered : Bool
  role : Role
  preLoss : Option Role
  slotStart : Option Nat
  recallTimer : Timer
  pendExcl : Bool
  pendUnavail : Bool
  pendDesel : Bool
  trip : Trip
  deriving DecidableEq, Repr

/-- The reset profile: 400 kW, 50 %, 32, 40 kW, 0, 10 s, 2 min (section 3.1). -/
def Profile.atReset : Profile :=
  { pr := 400, b := 50, f := 32, a := 40, g := 0, tland := 100, trun := 1200 }

/-- The trip record after reset (R16, R42). -/
def Trip.atReset : Trip :=
  { state := .none, purpose := none, direction := .up, load := 0, kind := .motoring, s := 0, n := 0,
    ret := 0, stamp := none, shedOrdered := false, startOverdue := false, recallOverdue := false,
    verdict := .none }

/-- The car record after reset, in the role given (R42: FREE, or ABSENT when not configured). -/
def CarRecord.atReset (role : Role) : CarRecord :=
  { link := .silent, linkTimer := none, profile := .atReset, position := .between, occupied := true,
    available := false, motion := .still, included := true, recallFailed := false, powered := false,
    role := role, preLoss := none, slotStart := none, recallTimer := none, pendExcl := false,
    pendUnavail := false, pendDesel := false, trip := .atReset }

/-- The car records after reset under a table: FREE below its car count, ABSENT at or above (R41). -/
def carsAtReset (t : Image) : Vector CarRecord 12 :=
  Vector.ofFn (fun c : CarIx => .atReset (if c.val < carCount t then .free else .absent))

/-! ## Port interfaces (chapter 8) -/

/-- A request in progress and the argument units it has taken (R138, R139). -/
structure InProgress where
  req : Request
  args : List Byte
  deriving DecidableEq, Repr

/-- A reply being served: its units, the number of the next one, and, for READ-NOTICES until its unit 1
has been served whole once, the snapshot to remove (R143, R145). -/
structure Reply where
  units : List Byte
  next : Nat
  snapshot : Option (BitVec 16)
  deriving DecidableEq, Repr

/-- A port interface (R135 to R145). The notice set is numbered as R144 numbers the kinds: bit n is
kind n. -/
structure PortIf where
  /-- The level of the SELn line: true while it is low and the port selected. -/
  selLow : Bool
  /-- The port became configured within a select and takes requests from the next one on (R43). -/
  awaitSelect : Bool
  /-- The bits of the unit being received (R135). -/
  shiftIn : List Bool
  /-- The data bits chosen for the latest unit going out (R136). -/
  sending : Byte
  /-- The bits that have gone out beside the latest unit coming in, whole or cut (R136, log 19). -/
  shiftOut : List Bool
  request : Option InProgress
  reply : Option Reply
  outcome : ReqOutcome
  notices : BitVec 16
  deriving DecidableEq, Repr

/-- The count of the bits of the unit being received (R135). -/
def PortIf.bitCount (i : PortIf) : Nat := i.shiftIn.length

/-- The level of DOUT: high while SELn is high, else the bit that went out last (R135, R136). -/
def PortIf.dout (i : PortIf) : Bool := !i.selLow || i.shiftOut.getLastD true

/-- A port interface after reset with SELn high (R152): idle, no request, no reply, outcome NONE, no
notice. -/
def PortIf.atReset : PortIf :=
  { selLow := false, awaitSelect := false, shiftIn := [], sending := 0xFF, shiftOut := [],
    request := none, reply := none, outcome := .none, notices := 0 }

/-- A port interface after a reset, its SELn line at the level the master holds it at (R152). -/
def PortIf.afterReset (i : PortIf) : PortIf := { PortIf.atReset with selLow := i.selLow }

/-- The link state and supervision timer of the supply or panel port (R146). -/
structure LinkSup where
  link : Link
  timer : Timer
  deriving DecidableEq, Repr

/-- A link after reset (R146): SILENT with its timer stopped. -/
def LinkSup.atReset : LinkSup := { link := .silent, timer := none }

/-! ## Capacity Account (chapter 2) -/

/-- What the Capacity Account holds of its own (section 2.1). -/
structure Account where
  offer : Nat
  stepLimit : Nat
  absorb : Nat
  reserves : Vector (Option Nat) 8
  overcommit : Overcommit
  deriving DecidableEq, Repr

/-- The account after reset (R17, R20, R37). -/
def Account.atReset : Account :=
  { offer := 0, stepLimit := 0, absorb := 0, reserves := Vector.replicate 8 none,
    overcommit := .none }

/-! ## Start Gate (chapter 4) -/

/-- What the Start Gate holds (section 4.1). The grant stack lists the oldest grant first, so its top
is the last entry. -/
structure Gate where
  state : GateState
  holder : Holder
  startTimer : Timer
  panelTimer : Timer
  recoveryTimer : Timer
  pendingClaim : Option EntryIx
  heldClaim : Option EntryIx
  fairness : Timer
  stack : List CarIx
  deriving DecidableEq, Repr

/-- The gate after reset (R64). -/
def Gate.atReset : Gate :=
  { state := .closed, holder := .none, startTimer := none, panelTimer := none,
    recoveryTimer := none, pendingClaim := none, heldClaim := none, fairness := none, stack := [] }

/-! ## Permit Queue (chapter 5) -/

/-- What the Permit Queue holds (section 5.1), head first, and the stamp of the next admission
(R83; log 18). -/
structure Queue where
  entries : List CarIx
  headTimer : Timer
  headAged : Bool
  nextStamp : Nat
  deriving DecidableEq, Repr

/-- The queue after reset (R83, R89). -/
def Queue.atReset : Queue := { entries := [], headTimer := none, headAged := false, nextStamp := 1 }

/-! ## Outage Sequencer (chapter 6) -/

/-- An entry of the recall list: a car and the tier it was given at insertion (R105). -/
structure RecallEntry where
  car : CarIx
  tier : Nat
  deriving DecidableEq, Repr

/-- What the Outage Sequencer holds (section 6.1); recall supervision is held with each car. -/
structure Plan where
  phase : Phase
  settleTimer : Timer
  recallDone : Bool
  returnTimer : Timer
  clearance : Clearance
  recallList : List RecallEntry
  mode : SelMode
  manualList : List CarIx
  serviceOrder : List CarIx
  deriving DecidableEq, Repr

/-- The sequencer after reset (R96). -/
def Plan.atReset : Plan :=
  { phase := .start, settleTimer := none, recallDone := false, returnTimer := none,
    clearance := .notClear, recallList := [], mode := .automatic, manualList := [],
    serviceOrder := [] }

/-! ## Shed Controller (chapter 7) -/

/-- A victim entry (section 7.1). -/
structure Victim where
  car : CarIx
  kind : VictimKind
  relief : Nat
  feeder : FeederIx
  standing : Standing
  timer : Timer
  deriving DecidableEq, Repr

/-- What the Shed Controller holds (section 7.1). -/
structure Shed where
  state : ShedState
  victims : List Victim
  deriving DecidableEq, Repr

/-- The controller after reset (R121). -/
def Shed.atReset : Shed := { state := .idle, victims := [] }

/-! ## Site Store and straps (chapter 9) -/

/-- What the non-volatile store holds: an image and a check word of 16 bits (R154). -/
structure NvStore where
  image : Image
  check : BitVec 16
  deriving DecidableEq, Repr

/-- The store matches when the check word it holds is the one formed over the image it holds (R154). -/
def NvStore.matching (n : NvStore) : Bool := n.check == Config.checkWord n.image

/-- A store that holds an image and the check word formed over it (R156). -/
def NvStore.formed (t : Image) : NvStore := { image := t, check := Config.checkWord t }

/-- A store that holds an image and a check word that does not match it (R157, R160): the word `w`, or
where that is the word formed over the image another one, its complement. -/
def NvStore.spoiled (t : Image) (w : BitVec 16) : NvStore :=
  { image := t, check := if w = Config.checkWord t then ~~~w else w }

/-- A blank store, as delivered: it does not match (R154, R160; its units and its word, log 8). -/
def NvStore.blank : NvStore := .spoiled zeroImage 0

/-- What the Site Store holds (R154, R156) and the straps as sampled (R159). -/
structure Store where
  active : Image
  site : SiteState
  state : StoreState
  writing : Option Image
  programTimer : Timer
  nv : NvStore
  carsel : BitVec 2
  single : Bool
  deriving DecidableEq, Repr

/-- R160's table: the image matches and validates under the sampled straps. -/
def NvStore.usable (n : NvStore) (carsel : BitVec 2) : Bool :=
  n.matching && validImage n.image (strappedCount carsel)

/-- The Site Store at reset release, from the store's content and the sampled straps (R160). -/
def Store.atRelease (n : NvStore) (carsel : BitVec 2) (single : Bool) : Store :=
  { active := if n.usable carsel && !single then n.image else defaultImage (strappedCount carsel),
    site := if n.usable carsel && !single then .valid else .default,
    state := .idle, writing := none, programTimer := none, nv := n, carsel := carsel,
    single := single }

/-! ## Notice numbers (R144) -/

/-- The number of a car port's notice kind. -/
def CarNotice.number : CarNotice → Nat
  | .phase => 0
  | .recallCall => 1
  | .permit => 2
  | .refused => 3
  | .dropped => 4
  | .shed => 5
  | .park => 6
  | .selected => 7
  | .excluded => 8
  | .protocol => 9

/-- The number of a supply port's notice kind. -/
def SupplyNotice.number : SupplyNotice → Nat
  | .phase => 0
  | .clear => 1
  | .overcommit => 2
  | .overEnd => 3
  | .panelSilent => 4
  | .unpermittedMotion => 5
  | .protocol => 6

/-- The number of a panel port's notice kind. -/
def PanelNotice.number : PanelNotice → Nat
  | .phase => 0
  | .overcommit => 1
  | .overEnd => 2
  | .shedOverdue => 3
  | .carLost => 4
  | .recallFailed => 5
  | .recallDone => 6
  | .startOverdue => 7
  | .panelGrant => 8
  | .unclearedTransfer => 9
  | .returnForced => 10
  | .unpermittedMotion => 11
  | .siteInvalid => 12
  | .supplySilent => 13
  | .storeDone => 14
  | .protocol => 15

/-- The notice set holding one kind, by its number. -/
def noticeBit (n : Nat) : BitVec 16 := BitVec.ofNat 16 (2 ^ n)

/-- The port interfaces at reset release, from those before: all as after reset, the panel port (number
13) with SITE_INVALID when R160 sets it. The ports are numbered CP0 to CP11, SP, PP (00_scope.md,
section 7.1). -/
def portsAtRelease (ports : Vector PortIf 14) (siteInvalid : Bool) : Vector PortIf 14 :=
  Vector.ofFn (fun i : Fin 14 =>
    if i.val = 13 ∧ siteInvalid then
      { ports[i].afterReset with notices := noticeBit PanelNotice.siteInvalid.number }
    else ports[i].afterReset)

end Sys2Proof.Machine
end

