-- ==== Sys2Proof/Machine/State.lean ====
section
/-!
DEFINITION. The whole state of the part, the reasons a step can stop, and the state after reset.
-/

namespace Sys2Proof.Machine

/-- The state of the part: every record of section 2.1 of 00_scope.md, the reset pin, and the model's
own last three fields (log 12). -/
structure State where
  /-- The twelve car records (chapter 3). -/
  cars : Vector CarRecord 12
  /-- The fourteen port interfaces, CP0 to CP11, SP, PP (chapter 8). -/
  ports : Vector PortIf 14
  /-- The supply port's link (R146). -/
  supplyLink : LinkSup
  /-- The panel port's link (R146). -/
  panelLink : LinkSup
  /-- The Capacity Account (chapter 2). -/
  account : Account
  /-- The Start Gate (chapter 4). -/
  gate : Gate
  /-- The Permit Queue (chapter 5). -/
  queue : Queue
  /-- The Outage Sequencer (chapter 6). -/
  plan : Plan
  /-- The Shed Controller (chapter 7). -/
  shed : Shed
  /-- The Site Store and the sampled straps (chapter 9). -/
  store : Store
  /-- RST is held low (section 9.5). -/
  rstLow : Bool
  /-- The model's own: how many tenths of a second have passed (log 2, 12). -/
  now : Nat
  /-- The model's own: how many free values have been drawn (log 12). -/
  freeIx : Nat
  /-- The model's own: the commands that wait, first in first out. -/
  pending : List Instr
  deriving DecidableEq, Repr

/-- Why the machine stops with a fault: never. The spec gives the part no fault that stops it, and every
command has an effect, so this type has no constructor (log 29; safe). -/
inductive Fault where
  deriving DecidableEq, Repr

/-- Why a command is refused. -/
inductive Refusal where
  /-- Raised only by an arm of `exec` whose command has no meaning yet; no arm is such a one (safe). -/
  | notModelled (mnemonic : String)
  deriving DecidableEq, Repr

/-- The state at reset release, from what outlives a reset: the store's content, the straps sampled at
the release, the levels the masters hold their SELn lines at and the model's own fields (R152, R160; each
block's after-reset values). -/
def State.released (n : NvStore) (carsel : BitVec 2) (single : Bool) (ports : Vector PortIf 14)
    (now freeIx : Nat) (pending : List Instr) : State :=
  { cars := carsAtReset (Store.atRelease n carsel single).active
    ports := portsAtRelease ports (!n.usable carsel)
    supplyLink := .atReset
    panelLink := .atReset
    account := .atReset
    gate := .atReset
    queue := .atReset
    plan := .atReset
    shed := .atReset
    store := .atRelease n carsel single
    rstLow := false
    now := now
    freeIx := freeIx
    pending := pending }

/-- The machine right after reset: released with a blank store, CARSEL 00, SINGLE inactive and every SELn
line high (log 7, 8). -/
def State.reset : State := .released .blank 0 false (.replicate 14 .atReset) 0 0 []

end Sys2Proof.Machine
end

