-- ==== Sys2Proof/Machine/Ops.lean ====
section
/-!
DEFINITION. The named operations over the state that every block uses: reading and updating one car
record or one port, setting a notice kind, starting a timer, choosing between two orders the spec
allows, and taking a car out of the plan.
-/

namespace Sys2Proof.Machine

/-! ## Cars -/

/-- The record of a car. -/
def State.car (s : State) (c : CarIx) : CarRecord := s.cars[c.val]

/-- Change the record of one car. -/
def State.updCar (s : State) (c : CarIx) (f : CarRecord → CarRecord) : State :=
  { s with cars := s.cars.set c.val (f (s.car c)) }

/-- Change the trip record of one car. -/
def State.updTrip (s : State) (c : CarIx) (f : Trip → Trip) : State :=
  s.updCar c (fun r => { r with trip := f r.trip })

/-- Change every car record. -/
def State.updAllCars (s : State) (f : CarIx → CarRecord → CarRecord) : State :=
  { s with cars := Vector.ofFn (fun c : CarIx => f c (s.car c)) }

/-- A car's role. -/
def State.role (s : State) (c : CarIx) : Role := (s.car c).role

/-- A car's trip record. -/
def State.trip (s : State) (c : CarIx) : Trip := (s.car c).trip

/-- A car port is configured when its index is below the active table's car count (R41). -/
def State.configured (s : State) (c : CarIx) : Bool := decide (c.val < carCount s.store.active)

/-- The single-car defaults are the active site table (R154, R161). -/
def State.singleCar (s : State) : Bool := s.store.site == .default

/-- The generator phases OUTAGE, RECALL, SERVICE and RETURN, in which a silent car is LOST (R51). -/
def Phase.generator : Phase → Bool
  | .outage | .recall | .service | .returning => true
  | .start | .mains => false

/-- A trip that is STARTING or RUNNING: one that stands in the grant stack (R69). -/
def TripState.moving : TripState → Bool
  | .starting | .running => true
  | .none | .waiting => false

/-- A trip that is NONE or WAITING. -/
def TripState.still (t : TripState) : Bool := !t.moving

/-- The car counts toward Krec: role RECALL, or LOST with pre-loss role RECALL (R111). -/
def State.inRecall (s : State) (c : CarIx) : Bool :=
  s.role c == .recall || (s.role c == .lost && (s.car c).preLoss == some .recall)

/-- The car counts toward Nsel: role SERVICE, or LOST with pre-loss role SERVICE (R111). -/
def State.inService (s : State) (c : CarIx) : Bool :=
  s.role c == .service || (s.role c == .lost && (s.car c).preLoss == some .service)

/-- How many cars count toward Krec (R111). -/
def State.recallCount (s : State) : Nat := (allCars.filter s.inRecall).length

/-- How many cars count toward Nsel (R111). -/
def State.serviceCount (s : State) : Nat := (allCars.filter s.inService).length

/-! ## Ports and notices -/

/-- A port's place in the order CP0 to CP11, SP, PP (00_scope.md, section 7.1). -/
def portIx : Port → Fin 14
  | .car c => ⟨c.val, Nat.lt_of_lt_of_le c.isLt (by decide)⟩
  | .supply => 12
  | .panel => 13

/-- The interface of a port. -/
def State.port (s : State) (p : Port) : PortIf := s.ports[(portIx p).val]

/-- Change the interface of one port. -/
def State.updPort (s : State) (p : Port) (f : PortIf → PortIf) : State :=
  { s with ports := s.ports.set (portIx p).val (f (s.port p)) }

/-- Make kind number `n` present in a port's notice set; a kind already present stays once (R144). -/
def State.setNotice (s : State) (p : Port) (n : Nat) : State :=
  s.updPort p (fun i => { i with notices := i.notices ||| noticeBit n })

/-- Set a kind on a car port. An absent port's set stays empty (R41). -/
def State.noticeCar (s : State) (c : CarIx) (k : CarNotice) : State :=
  if s.configured c then s.setNotice (.car c) k.number else s

/-- Set a kind on the supply port. -/
def State.noticeSupply (s : State) (k : SupplyNotice) : State := s.setNotice .supply k.number

/-- Set a kind on the panel port. -/
def State.noticePanel (s : State) (k : PanelNotice) : State := s.setNotice .panel k.number

/-- Kind number `n` is present in the port's notice set. -/
def State.hasNotice (s : State) (p : Port) (n : Nat) : Bool := (s.port p).notices.getLsbD n

/-- ATN is asserted while the notice set holds a kind (R144); while RST is held low it is released
(section 9.5). -/
def State.atn (s : State) (p : Port) : Bool := !s.rstLow && (s.port p).notices != 0

/-- Set a kind on every configured car port. -/
def State.noticeCars (s : State) (k : CarNotice) : State :=
  allCars.foldl (fun t c => t.noticeCar c k) s

/-! ## Timers and free values -/

/-- Start a timer now, for a duration in tenths of a second. -/
def State.startTimer (s : State) (duration : Nat) : Timer := some ⟨s.now, duration⟩

/-- A running timer whose duration has passed. -/
def timerDue (now : Nat) : Timer → Bool
  | some r => decide (r.start + r.duration ≤ now)
  | none => false

/-- Where the spec allows either of two orders inside one command, the results `a` and `b` of the two
are both possible: a free value picks one. Where they agree nothing is drawn (log 5, 6). -/
def eitherOrder (a b : State) : State :=
  if a = b then a
  else
    let ix := max a.freeIx b.freeIx
    if Config.firstOrder ix then { a with freeIx := ix + 1 } else { b with freeIx := ix + 1 }

/-! ## Leaving the plan -/

/-- The car has left role RECALL, SERVICE or HELD (or that pre-loss role): its place in the recall list
and the service order is given up and its recall supervision stops (R106, R109, R112). Its slot start time
goes with its slot, however it leaves the role (log 34). -/
def leavePlan (c : CarIx) (s : State) : State :=
  let t := s.updCar c (fun r => { r with recallTimer := none, slotStart := none })
  { t with plan := { t.plan with
      recallList := t.plan.recallList.filter (fun e => e.car != c)
      serviceOrder := t.plan.serviceOrder.filter (fun d => d != c) } }

/-- Clear a car's three pending effects (R62, R63). -/
def clearPending (c : CarIx) (s : State) : State :=
  s.updCar c (fun r => { r with pendExcl := false, pendUnavail := false, pendDesel := false })

/-- The car's entry leaves the victim set (R62, R130). -/
def dropVictim (c : CarIx) (s : State) : State :=
  { s with shed := { s.shed with victims := s.shed.victims.filter (fun v => v.car != c) } }

/-- Make a car UNAVAILABLE: unpowered, out of the plan, with no pending effect (R60, R61, R62). -/
def makeUnavailable (c : CarIx) (s : State) : State :=
  clearPending c
    (leavePlan c (s.updCar c (fun r => { r with powered := false, role := .unavailable })))

/-- Make a car PARKED: unpowered, its recall supervision stopped, its slot given up (R108). -/
def park (c : CarIx) (s : State) : State :=
  leavePlan c (s.updCar c (fun r => { r with powered := false, role := .parked }))

end Sys2Proof.Machine
end

