-- ==== Sys2Proof/Machine/Demand.lean ====
section
/-!
DEFINITION. The Demand Calculator (chapter 1): the figures of a trip from its direction and load units
and the car's profile.
-/

namespace Sys2Proof.Machine

/-- The stored figures of a trip (section 1.1). -/
structure Demand where
  direction : Direction
  load : Nat
  kind : Kind
  s : Nat
  n : Nat
  ret : Nat
  deriving DecidableEq, Repr

/-- The trip load L: a value above 125 is clamped to 125 (R4). -/
def tripLoad (load : Byte) : Nat := min 125 load.toNat

/-- The imbalance D, load less balance, signed (R6). -/
def imbalance (p : Profile) (load : Nat) : Int := (load : Int) - (p.b : Int)

/-- The direction of the trip; a code that names neither is read as the one gravity opposes (R3). -/
def tripDirection (code : Byte) (d : Int) : Direction :=
  match directionOf code with
  | some x => x
  | none => if 0 ≤ d then .up else .down

/-- The effective imbalance E (R6). -/
def effImbalance (dir : Direction) (d : Int) : Int :=
  match dir with
  | .up => d
  | .down => -d

/-- The running magnitude P: Pr × |E| divided by 100 − B, rounded up (R7), and limited to 3 × Pr / 2
rounded up when E is negative (R8). -/
def runningMagnitude (p : Profile) (e : Int) : Nat :=
  let full := ceilDiv (p.pr * e.natAbs) (100 - p.b)
  if e < 0 then min full (ceilDiv (3 * p.pr) 2) else full

/-- The loss term K: Pr / 8, rounded up (R9). -/
def lossTerm (p : Profile) : Nat := ceilDiv p.pr 8

/-- The net running power N' (R10). -/
def netRunning (p : Profile) (e : Int) : Int :=
  if 0 < e then (lossTerm p : Int) + (runningMagnitude p e : Int)
  else (lossTerm p : Int) - (runningMagnitude p e : Int)

/-- The start demand S: the greater of N' and K, by F / 8, rounded up (R11). -/
def startDemand (p : Profile) (n' : Int) : Nat :=
  ceilDiv ((max n' (lossTerm p : Int)).toNat * p.f) 8

/-- The return credit Ret: Q × G / 16 rounded down, with Q = −N' (R12). -/
def returnCredit (p : Profile) (n' : Int) : Nat :=
  if n' < 0 then (-n').toNat * p.g / 16 else 0

/-- A computation: the figures of a trip, in the eight stages of section 1.3. -/
def demandOf (p : Profile) (dirCode loadCode : Byte) : Demand :=
  let load := tripLoad loadCode
  let d := imbalance p load
  let dir := tripDirection dirCode d
  let n' := netRunning p (effImbalance dir d)
  { direction := dir
    load := load
    kind := if n' < 0 then .regen else .motoring
    s := startDemand p n'
    n := n'.toNat
    ret := returnCredit p n' }

/-- Write a computation's figures into a trip record, replacing those held before (R14, R15). -/
def Trip.withDemand (t : Trip) (d : Demand) : Trip :=
  { t with direction := d.direction, load := d.load, kind := d.kind, s := d.s, n := d.n,
           ret := d.ret }

/-- Compute a car's trip from its profile as it stands and write the figures (R14, R15). -/
def computeTrip (c : CarIx) (dirCode loadCode : Byte) (s : State) : State :=
  s.updTrip c (fun t => t.withDemand (demandOf (s.car c).profile dirCode loadCode))

end Sys2Proof.Machine
end

