-- ==== Sys2Proof/Machine/Account.lean ====
section
/-!
DEFINITION. The Capacity Account (chapter 2): charges, sums, the four fit tests, the overcommit
conditions and their evaluation.
-/

namespace Sys2Proof.Machine

/-! ## Charges (section 2.5) -/

/-- A car's standing charge: A while powered (R25). -/
def CarRecord.standing (r : CarRecord) : Nat := if r.powered then r.profile.a else 0

/-- A trip's charge (R26). -/
def Trip.charge (t : Trip) : Nat :=
  match t.state with
  | .none | .waiting => 0
  | .starting => t.s
  | .running =>
    match t.kind with
    | .motoring => t.n
    | .regen => 0

/-- A trip's return credit (R26). -/
def Trip.credit (t : Trip) : Nat :=
  match t.state, t.kind with
  | .running, .regen => t.ret
  | _, _ => 0

/-- A car's base charge: its standing charge, plus N when its trip is STARTING, or RUNNING and MOTORING
(R27). -/
def CarRecord.baseCharge (r : CarRecord) : Nat :=
  r.standing +
    match r.trip.state, r.trip.kind with
    | .starting, _ => r.trip.n
    | .running, .motoring => r.trip.n
    | _, _ => 0

/-- A car's standing charge plus its trip charge. -/
def CarRecord.charge (r : CarRecord) : Nat := r.standing + r.trip.charge

/-! ## Sums (section 2.6) -/

/-- A sum over all twelve records. -/
def sumCars (f : CarIx → Nat) : Nat := (allCars.map f).sum

/-- Committed load Lc (R29). -/
def State.lc (s : State) : Nat := sumCars (fun c => (s.car c).charge)

/-- Returned load Lr (R29). -/
def State.lr (s : State) : Nat := sumCars (fun c => (s.trip c).credit)

/-- Base load Lb (R29). -/
def State.lb (s : State) : Nat := sumCars (fun c => (s.car c).baseCharge)

/-- The amount of a reserve entry; an empty one adds nothing (R20, R22). -/
def State.reserveAmount (s : State) (e : EntryIx) : Nat := (s.account.reserves[e.val]).getD 0

/-- Reserve total Rs (R22). -/
def State.rs (s : State) : Nat := (allEntries.map s.reserveAmount).sum

/-- Headroom H = O − Rs − Lc, signed (R29). -/
def State.headroom (s : State) : Int := (s.account.offer : Int) - (s.rs : Int) - (s.lc : Int)

/-- A car's feeder, from the active table (R23). -/
def State.feeder (s : State) (c : CarIx) : FeederIx := feederOf s.store.active c

/-- A feeder's rating, from the active table (R23). -/
def State.rating (s : State) (f : FeederIx) : Nat := ratingOf s.store.active f

/-- The load of feeder f (R29); no car is counted on any feeder under the single-car defaults (R24). -/
def State.feederLoad (s : State) (f : FeederIx) : Nat :=
  if s.singleCar then 0
  else sumCars (fun c => if s.feeder c = f then (s.car c).charge else 0)

/-- The standing charges of every powered car. -/
def State.standingAll (s : State) : Nat := sumCars (fun c => (s.car c).standing)

/-- The standing charges of every powered car on a feeder. -/
def State.standingOn (s : State) (f : FeederIx) : Nat :=
  sumCars (fun c => if s.feeder c = f then (s.car c).standing else 0)

/-! ## Fit tests (section 2.7) -/

/-- The extra of a car's trip: S, plus A when the car is not yet powered (R31). -/
def State.extra (s : State) (c : CarIx) : Nat :=
  (s.trip c).s + if (s.car c).powered then 0 else (s.car c).profile.a

/-- The step test: U is 0, or S is at most U (R32). -/
def State.stepOk (s : State) (c : CarIx) : Bool :=
  decide (s.account.stepLimit = 0 ∨ (s.trip c).s ≤ s.account.stepLimit)

/-- The parts of the fit-now test, each true when it passes (R31). -/
structure FitReport where
  headroom : Bool
  feeder : Bool
  step : Bool
  reverse : Bool
  deriving DecidableEq, Repr

/-- The fit-now test of a car's trip, part by part (R31); the feeder part is not applied under the
single-car defaults (R24). -/
def State.fitReport (s : State) (c : CarIx) : FitReport :=
  { headroom := decide ((s.extra c : Int) ≤ s.headroom)
    feeder := s.singleCar ||
      decide (s.feederLoad (s.feeder c) + s.extra c ≤ s.rating (s.feeder c))
    step := s.stepOk c
    reverse := (s.trip c).kind == .motoring ||
      decide (-(s.account.absorb : Int) ≤ (s.lb : Int) - (s.lr : Int) - ((s.trip c).ret : Int)) }

/-- A trip fits now when every part passes (R31). -/
def FitReport.passes (r : FitReport) : Bool := r.headroom && r.feeder && r.step && r.reverse

/-- The trip of the car fits now (R31). -/
def State.fitsNow (s : State) (c : CarIx) : Bool := (s.fitReport c).passes

/-- The trip of the car fits at rest (R33). -/
def State.fitsAtRest (s : State) (c : CarIx) : Bool :=
  decide (s.extra c + s.standingAll + s.rs ≤ s.account.offer) &&
  (s.singleCar ||
    decide (s.extra c + s.standingOn (s.feeder c) ≤ s.rating (s.feeder c)))

/-- The selection fit of a car (R34). -/
def State.selectionFits (s : State) (c : CarIx) : Bool :=
  decide ((s.car c).profile.a + s.lc + s.rs ≤ s.account.offer) &&
  (s.singleCar ||
    decide (s.feederLoad (s.feeder c) + (s.car c).profile.a ≤ s.rating (s.feeder c)))

/-- Everything whose change the account hands on (R39): the held values, the sums and the conditions. -/
structure Figures where
  offer : Nat
  stepLimit : Nat
  absorb : Nat
  reserves : Vector (Option Nat) 8
  lc : Nat
  lb : Nat
  lr : Nat
  feeders : List Nat
  conditions : List Bool
  deriving DecidableEq, Repr

end Sys2Proof.Machine
end

