-- ==== Sys2Proof/Machine/Flags.lean ====
section
/-!
DEFINITION. The conditions and flags: the six overcommit conditions (R36), the evaluation that moves the
overcommit state (R37), and the flag units of the replies (R149, R150).
-/

namespace Sys2Proof.Machine

/-- The conditions are evaluated in RECALL, SERVICE and RETURN (R36). -/
def Phase.evaluates : Phase → Bool
  | .recall | .service | .returning => true
  | .start | .mains | .outage => false

/-- The capacity condition (R36). -/
def State.capacityCond (s : State) : Bool := s.plan.phase.evaluates && decide (s.headroom < 0)

/-- The condition of feeder f; not evaluated under the single-car defaults (R36). -/
def State.feederCond (s : State) (f : FeederIx) : Bool :=
  s.plan.phase.evaluates && !s.singleCar && decide (s.rating f < s.feederLoad f)

/-- The reverse-power condition (R36). -/
def State.reverseCond (s : State) : Bool :=
  s.plan.phase.evaluates && decide ((s.lb : Int) - (s.lr : Int) < -(s.account.absorb : Int))

/-- The six conditions: capacity, feeders 0 to 3, reverse power. -/
def State.conditions (s : State) : List Bool :=
  [s.capacityCond, s.feederCond 0, s.feederCond 1, s.feederCond 2, s.feederCond 3, s.reverseCond]

/-- At least one condition holds. -/
def State.anyCondition (s : State) : Bool := s.conditions.any id

/-- The account's figures as they stand (R30). -/
def State.figures (s : State) : Figures :=
  { offer := s.account.offer, stepLimit := s.account.stepLimit, absorb := s.account.absorb,
    reserves := s.account.reserves, lc := s.lc, lb := s.lb, lr := s.lr,
    feeders := allFeeders.map s.feederLoad, conditions := s.conditions }

/-- The Shed Controller becomes IDLE with its victim set empty and every timer stopped (R131). -/
def shedIdle (s : State) : State := { s with shed := { state := .idle, victims := [] } }

/-- The overcommit begins: HOLDING, OVERCOMMIT on the supply and panel ports, controller ACTIVE
(R37, R122). -/
def overcommitBegins (s : State) : State :=
  (({ s with account := { s.account with overcommit := .holding },
             shed := { s.shed with state := .active } }).noticeSupply .overcommit).noticePanel
    .overcommit

/-- The overcommit ends: NONE, OVER_END on the supply and panel ports, controller IDLE (R37, R131). -/
def overcommitEnds (s : State) : State :=
  shedIdle
    ((({ s with account := { s.account with overcommit := .none } }).noticeSupply
      .overEnd).noticePanel .overEnd)

/-- An evaluation of the conditions (R37). -/
def evaluate (s : State) : State :=
  match s.account.overcommit, s.anyCondition with
  | .none, true => overcommitBegins s
  | .holding, false => overcommitEnds s
  | _, _ => s

/-! ## Flag units of replies -/

/-- A Bool as a bit of weight `w`. -/
def bitOf (b : Bool) (w : Nat) : Nat := if b then w else 0

/-- The trip flags unit of READ-CAR (R150). -/
def tripFlags (t : Trip) : Byte :=
  BitVec.ofNat 8 (bitOf t.shedOrdered 1 + bitOf t.startOverdue 2 + bitOf t.recallOverdue 4 +
    bitOf (t.kind == .regen) 8 + bitOf (t.direction == .down) 16)

/-- The conditions unit of READ-ACCOUNT (R150). -/
def conditionFlags (s : State) : Byte :=
  BitVec.ofNat 8 (bitOf s.capacityCond 1 + bitOf (s.feederCond 0) 2 + bitOf (s.feederCond 1) 4 +
    bitOf (s.feederCond 2) 8 + bitOf (s.feederCond 3) 16 + bitOf s.reverseCond 32)

/-- The code of a phase (R149). -/
def phaseCode : Phase → Byte
  | .start => 0
  | .mains => 1
  | .outage => 2
  | .recall => 3
  | .service => 4
  | .returning => 5

/-- The code of a role (R149). -/
def roleCode : Role → Byte
  | .free => 0
  | .held => 1
  | .recall => 2
  | .parked => 3
  | .service => 4
  | .unavailable => 5
  | .lost => 6
  | .absent => 7

/-- The code of a trip state (R149). -/
def tripStateCode : TripState → Byte
  | .none => 0
  | .waiting => 1
  | .starting => 2
  | .running => 3

/-- The code of a gate state (R64, R149). -/
def gateCode : GateState → Byte
  | .closed => 0
  | .opened => 1
  | .carStart => 2
  | .panelStart => 3
  | .recovery => 4

/-- The code of the clearance (R149). -/
def clearanceCode : Clearance → Byte
  | .notClear => 0
  | .clear => 1

/-- The code of an outcome (R142). -/
def outcomeCode : ReqOutcome → Byte
  | .none => 0
  | .accepted => 1
  | .abandoned => 2
  | .unknown => 3
  | .notRequired => 4
  | .busy => 5
  | .wrongPhase => 6
  | .notPermitted => 7
  | .noCapacity => 8
  | .step => 9
  | .range => 10

/-- The verdict and reason unit: verdict in bits 7 to 4, reason in bits 3 to 0 (R149). -/
def verdictCode : Verdict → Byte
  | .none => 0x00
  | .granted => 0x10
  | .refused .wrongPhase => 0x26
  | .refused .notPermitted => 0x27
  | .refused .busy => 0x25
  | .refused .step => 0x29
  | .refused .noCapacity => 0x28
  | .dropped .step => 0x39
  | .dropped .noCapacity => 0x38
  | .dropped .role => 0x3B
  | .dropped .link => 0x3C
  | .dropped .phase => 0x3D

end Sys2Proof.Machine
end

