-- ==== Sys2Proof/Machine/PermitQueue.lean ====
section
/-!
DEFINITION. The Permit Queue (chapter 5): its order, its head and age, the taking of a TRIP, and every
way an entry leaves.
-/

namespace Sys2Proof.Machine

/-- The entry of car `a` precedes that of car `b`: purpose, then class rank, then arrival stamp (R84). -/
def entryBefore (s : State) (a b : CarIx) : Bool :=
  let pa := if (s.trip a).purpose = some .recall then 0 else 1
  let pb := if (s.trip b).purpose = some .recall then 0 else 1
  let ra := rankOf s.store.active a
  let rb := rankOf s.store.active b
  decide (pa < pb ∨ pa = pb ∧ (ra < rb ∨ ra = rb ∧
    ((s.trip a).stamp.getD 0 < (s.trip b).stamp.getD 0)))

/-- Insert an element behind every one that precedes it, ahead of the rest (R84, R105). -/
def insertBy {α : Type} (before : α → α → Bool) (x : α) : List α → List α
  | [] => [x]
  | y :: ys => if before x y then x :: y :: ys else y :: insertBy before x ys

/-- Set the entry list, keeping the head age timer and flag as R89 gives: a new head restarts the
timer and clears the flag, the same head keeps both, an empty queue or bypass off stops the timer and
clears the flag. -/
def setEntries (l : List CarIx) (s : State) : State :=
  let q := { s.queue with entries := l }
  if bypass s.store.active = false ∨ l = [] then
    { s with queue := { q with headTimer := none, headAged := false } }
  else if l.head? = s.queue.entries.head? then { s with queue := q }
  else
    { s with queue := { q with headTimer := s.startTimer (tAge s.store.active), headAged := false } }

/-- Take a car's entry out from wherever it stands (R83). -/
def removeEntry (c : CarIx) (s : State) : State :=
  setEntries (s.queue.entries.filter (fun d => d != c)) s

/-- A waiting entry is removed: the trip becomes NONE with verdict DROPPED and the reason, and notice
DROPPED is set (R92, R93, R94). A car whose trip is not WAITING is left as it is. -/
def dropEntry (c : CarIx) (reason : DropReason) (s : State) : State :=
  if (s.trip c).state = .waiting then
    ((removeEntry c s).updTrip c
      (fun t => { t with state := .none, verdict := .dropped reason })).noticeCar c .dropped
  else s

/-- Remove every entry within a phase change (R94). -/
def dropAllEntries (s : State) : State :=
  setEntries [] (s.queue.entries.foldl (fun t c => dropEntry c .phase t) s)

/-- A waiting entry's re-check verdict: none when it passes, STEP first, then NO_CAPACITY (R92). -/
def recheckFails (s : State) (c : CarIx) : Option DropReason :=
  if !s.stepOk c then some .step
  else if !s.fitsAtRest c then some .noCapacity
  else none

/-- Re-check every waiting entry against the account as it stands, each on the same figures (R92). -/
def recheck (s : State) : State :=
  s.queue.entries.foldl
    (fun t c =>
      match recheckFails s c with
      | some r => dropEntry c r t
      | none => t) s

/-- The candidates the queue offers the grant rule, in queue order (R90). -/
def candidates (s : State) : List CarIx :=
  if bypass s.store.active && !s.queue.headAged then s.queue.entries else s.queue.entries.take 1

/-- The outcome of a refusal's reason (R88, R142). -/
def RefuseReason.outcome : RefuseReason → ReqOutcome
  | .wrongPhase => .wrongPhase
  | .notPermitted => .notPermitted
  | .busy => .busy
  | .step => .step
  | .noCapacity => .noCapacity

/-- Refuse a TRIP: verdict REFUSED with the reason, notice REFUSED, and the outcome (R88). -/
def refuseTrip (c : CarIx) (r : RefuseReason) (s : State) : State × ReqOutcome :=
  ((s.updTrip c (fun t => { t with verdict := .refused r })).noticeCar c .refused, r.outcome)

/-- The purpose of a trip, fixed from the car's role (R83). -/
def purposeOf (r : Role) : Purpose := if r = .recall then .recall else .service

/-- Admit a car's trip: WAITING, with its purpose, a new stamp and verdict NONE, at its place (R86). -/
def admitEntry (c : CarIx) (s : State) : State :=
  let t := s.updTrip c (fun t =>
    { t with state := .waiting, purpose := some (purposeOf (s.role c)),
             stamp := some s.queue.nextStamp, verdict := .none })
  let u := setEntries (insertBy (entryBefore t) c t.queue.entries) t
  { u with queue := { u.queue with nextStamp := u.queue.nextStamp + 1 } }

/-- The tests of a fresh or updated trip, in their order (R86, R87). -/
def admissionFails (s : State) (c : CarIx) : Option RefuseReason :=
  if !s.stepOk c then some .step
  else if !s.fitsAtRest c then some .noCapacity
  else none

/-- A fresh trip, from a car whose trip is NONE (R86). -/
def freshTrip (c : CarIx) (dir load : Byte) (s : State) : State × ReqOutcome :=
  let t := computeTrip c dir load s
  match admissionFails t c with
  | some r => refuseTrip c r t
  | none => (admitEntry c t, .accepted)

/-- An update in place, from a car whose trip is WAITING (R87). -/
def updateTrip (c : CarIx) (dir load : Byte) (s : State) : State × ReqOutcome :=
  let t := computeTrip c dir load s
  match admissionFails t c with
  | some r => refuseTrip c r ((removeEntry c t).updTrip c (fun x => { x with state := .none }))
  | none => (t, .accepted)

/-- A complete TRIP: the screen of R85, the first condition that applies. -/
def takeTrip (c : CarIx) (dir load : Byte) (s : State) : State × ReqOutcome :=
  match s.plan.phase with
  | .start | .mains => (s, .notRequired)
  | .outage | .returning => refuseTrip c .wrongPhase s
  | .recall | .service =>
    if s.role c ≠ .recall ∧ s.role c ≠ .service then refuseTrip c .notPermitted s
    else
      match (s.trip c).state with
      | .starting | .running => refuseTrip c .busy s
      | .waiting => updateTrip c dir load s
      | .none => freshTrip c dir load s

/-- WITHDRAW: a waiting trip's entry is removed, the trip and its verdict become NONE (R91). -/
def withdrawTrip (c : CarIx) (s : State) : State :=
  if (s.trip c).state = .waiting then
    (removeEntry c s).updTrip c (fun t => { t with state := .none, verdict := .none })
  else s

/-- The place of a car in the queue, counted from 1 at the head; 0 when it does not wait (R95). -/
def queuePosition (s : State) (c : CarIx) : Nat :=
  if (s.trip c).state = .waiting then s.queue.entries.idxOf c + 1 else 0

end Sys2Proof.Machine
end

