-- ==== Sys2Proof/Machine/StartGate.lean ====
section
/-!
DEFINITION. The Start Gate (chapter 4): the grant rule, the grants, recovery, the panel's claims and the
fairness window.
-/

namespace Sys2Proof.Machine

/-- The gate enters RECOVERY: no holder, the windows stopped, the recovery timer started for Trec
(R77). -/
def enterRecovery (s : State) : State :=
  { s with gate := { s.gate with
      state := .recovery, holder := .none, startTimer := none, panelTimer := none,
      recoveryTimer := s.startTimer (tRec s.store.active) } }

/-- The gate becomes OPEN out of RECOVERY, or at the entry of R65. -/
def openGate (s : State) : State :=
  { s with gate := { s.gate with state := .opened, holder := .none, recoveryTimer := none } }

/-- The gate becomes CLOSED: holder and claims cancelled, every timer stopped, the stack emptied
(R65). -/
def closeGate (s : State) : State :=
  { s with gate :=
      { state := .closed, holder := .none, startTimer := none, panelTimer := none,
        recoveryTimer := none, pendingClaim := none, heldClaim := none, fairness := none,
        stack := [] } }

/-- A car leaves the grant stack from wherever it stands (R69). -/
def leaveStack (c : CarIx) (s : State) : State :=
  { s with gate := { s.gate with stack := s.gate.stack.filter (fun d => d != c) } }

/-- If the car holds the gate in CAR_START, its window ends and the gate enters RECOVERY (R70 to R72,
R74). -/
def endWindowOf (c : CarIx) (s : State) : State :=
  if s.gate.state = .carStart ∧ s.gate.holder = .car c then enterRecovery s else s

/-- A car grant is allowed (R67). -/
def carGrantAllowed (s : State) : Bool :=
  (s.plan.phase == .recall || s.plan.phase == .service) &&
  s.account.overcommit == .none && s.supplyLink.link == .up

/-- A car grant to car c, one event (R68). -/
def carGrant (c : CarIx) (s : State) : State :=
  let t := s.updCar c (fun r =>
    { r with powered := true,
             trip := { r.trip with state := .starting, verdict := .granted, startOverdue := false,
                                   shedOrdered := false } })
  let u := removeEntry c t
  ({ u with gate := { u.gate with
      stack := u.gate.stack ++ [c], state := .carStart, holder := .car c,
      startTimer := u.startTimer (tStart u.store.active), fairness := none } }).noticeCar c .permit

/-- The pending claim, naming entry e, becomes the held claim (R79). -/
def panelGrant (e : EntryIx) (s : State) : State :=
  ({ s with gate := { s.gate with
      pendingClaim := none, heldClaim := some e, state := .panelStart, holder := .panel,
      panelTimer := s.startTimer (tPstart s.store.active) } }).noticePanel .panelGrant

/-- The car grant of the grant rule: the first candidate that fits now (R67). -/
def carGrantRule (s : State) : State :=
  if carGrantAllowed s then
    match (candidates s).find? s.fitsNow with
    | some c => carGrant c s
    | none => s
  else s

/-- The grant rule of an OPEN gate (R66): the pending claim while no fairness window runs, else the car
grant. In any other gate state nothing is granted. -/
def grantRule (s : State) : State :=
  if s.gate.state = .opened then
    match s.gate.pendingClaim with
    | some e => if s.gate.fairness.isNone then panelGrant e s else carGrantRule s
    | none => carGrantRule s
  else s

/-- A panel hold ends: the held claim becomes none, the gate enters RECOVERY, and the fairness window
starts if an entry waits (R80, R81, R82). -/
def endPanelHold (s : State) : State :=
  let t := enterRecovery { s with gate := { s.gate with heldClaim := none } }
  if t.queue.entries = [] then t
  else { t with gate := { t.gate with fairness := t.startTimer (tFair t.store.active) } }

/-- A GATE-CLAIM for an entry unit: the first condition of R78's table that applies. -/
def takeClaim (u : Byte) (s : State) : State × ReqOutcome :=
  match s.plan.phase with
  | .start | .mains => (s, .notRequired)
  | .outage => (s, .wrongPhase)
  | .recall | .service | .returning =>
    match entryIxOf u with
    | none => (s, .range)
    | some e =>
      if s.account.reserves[e.val] = none then (s, .notPermitted)
      else if s.gate.pendingClaim.isSome ∨ s.gate.heldClaim.isSome then (s, .notPermitted)
      else ({ s with gate := { s.gate with pendingClaim := some e } }, .accepted)

/-- A GATE-RELEASE (R80). -/
def releaseClaim (s : State) : State × ReqOutcome :=
  if s.gate.heldClaim.isSome then (endPanelHold s, .accepted)
  else if s.gate.pendingClaim.isSome then
    ({ s with gate := { s.gate with pendingClaim := none } }, .accepted)
  else (s, .notPermitted)

/-- The trip of a car becomes RUNNING at AT-SPEED (R70); a trip that is not STARTING, or a car in role
LOST, is left as it is. -/
def atSpeed (c : CarIx) (s : State) : State :=
  if s.role c ≠ .lost ∧ (s.trip c).state = .starting then
    endWindowOf c (s.updTrip c (fun t => { t with state := .running }))
  else s

/-- Stage 1 of a trip's end: the trip becomes NONE, the car leaves the stack, and its window ends if it
holds the gate (R71, R72, R75, R76). -/
def endTrip (c : CarIx) (s : State) : State :=
  leaveStack c (endWindowOf c (s.updTrip c (fun t => { t with state := .none })))

/-- The start window expires (R73). -/
def startWindowExpires (s : State) : State :=
  match s.gate.holder with
  | .car c =>
    (enterRecovery (s.updTrip c (fun t => { t with startOverdue := true }))).noticePanel .startOverdue
  | _ => s

end Sys2Proof.Machine
end

