-- ==== Sys2Proof/Machine/Sequencer.lean ====
section
/-!
DEFINITION. The Outage Sequencer's plan (sections 6.4 to 6.6): the recall list, calls, parking, the end
of the initial recall, selection, deselection and clearance.
-/

namespace Sys2Proof.Machine

/-! ## Phase -/

/-- The phase becomes `p`, and notice PHASE is set on the supply port, the panel port and every
configured car port (R97). -/
def enterPhase (p : Phase) (s : State) : State :=
  ((({ s with plan := { s.plan with phase := p } }).noticeSupply .phase).noticePanel
    .phase).noticeCars .phase

/-! ## The recall list -/

/-- The tier of a car's status at insertion (R105). -/
def tierOf (r : CarRecord) : Nat :=
  match r.position, r.occupied with
  | .between, true => 1
  | .between, false => 2
  | _, true => 3
  | _, false => 4

/-- The entry `a` stands ahead of `b`: tier, then class rank, then car index (R105). -/
def recallBefore (t : Image) (a b : RecallEntry) : Bool :=
  decide (a.tier < b.tier ∨ a.tier = b.tier ∧
    (rankOf t a.car < rankOf t b.car ∨ rankOf t a.car = rankOf t b.car ∧ a.car.val < b.car.val))

/-- Insert a car into the recall list at its place, by its status now (R105, R106). -/
def insertRecall (c : CarIx) (s : State) : State :=
  { s with plan := { s.plan with
      recallList := insertBy (recallBefore s.store.active) ⟨c, tierOf (s.car c)⟩
        s.plan.recallList } }

/-- The car stands in the recall list. -/
def listed (s : State) (c : CarIx) : Bool := s.plan.recallList.any (fun e => e.car == c)

/-- Take a HELD car into the plan: PARKED at once at its recall landing, else inserted (R105, R106). -/
def joinPlan (c : CarIx) (s : State) : State :=
  if (s.car c).position = .atRecall then park c s else insertRecall c s

/-! ## Calls -/

/-- The conditions of a call, but for the list (R107). -/
def canCall (s : State) : Bool :=
  (s.plan.phase == .recall || s.plan.phase == .service) && s.supplyLink.link == .up &&
  decide (s.recallCount < krec s.store.active) && (!s.singleCar || s.serviceCount == 0)

/-- Call a car that has left the list: PARKED at once at its recall landing, else role RECALL with its
slot start time, its supervision, its overdue flag cleared and notice RECALL_CALL (R107). -/
def callCar (c : CarIx) (s : State) : State :=
  if (s.car c).position = .atRecall then park c s
  else
    (s.updCar c (fun r =>
      { r with role := .recall, slotStart := some s.now,
               recallTimer := s.startTimer
                 (superviseLimit (multiplier s.store.active) r.profile.trun)
               trip := { r.trip with recallOverdue := false } })).noticeCar c .recallCall

/-- Call heads of the list until a condition fails (R107). Each call shortens the list, so as many calls
as it has entries are enough. -/
def callHeads : Nat → State → State
  | 0, s => s
  | k + 1, s =>
    match s.plan.recallList with
    | [] => s
    | e :: rest =>
      if canCall s then callHeads k (callCar e.car { s with plan := { s.plan with recallList := rest } })
      else s

/-- The Outage Sequencer runs its calls (R107). -/
def runCalls (s : State) : State := callHeads s.plan.recallList.length s

/-- A car made HELD, or restored to it, is handed back: in RECALL or SERVICE it joins the plan as a late
joiner and the calls run, unless its recall failed; in other phases it stays HELD (R57, R106). -/
def handBack (c : CarIx) (s : State) : State :=
  if (s.plan.phase = .recall ∨ s.plan.phase = .service) ∧ (s.car c).recallFailed = false then
    runCalls (joinPlan c s)
  else s

/-- Nothing is left of the initial recall: no list, and no car that counts toward Krec (R110). -/
def recallOver (s : State) : Bool :=
  s.plan.phase == .recall && s.plan.recallList.isEmpty && s.recallCount == 0

/-- The end of the initial recall: SERVICE, recall-done set, RECALL_DONE on the panel port (R110). -/
def endRecall (s : State) : State :=
  (enterPhase .service { s with plan := { s.plan with recallDone := true } }).noticePanel .recallDone

/-! ## Parking, deselection, clearance -/

/-- The parking check of a car in role RECALL (R108). -/
def parkingCheck (c : CarIx) (s : State) : State :=
  if s.role c = .recall ∧ (s.trip c).state = .none then
    match s.plan.phase with
    | .recall | .service => if (s.car c).position = .atRecall then park c s else s
    | .returning =>
      if (s.car c).position = .atRecall then park c s
      else leavePlan c (s.updCar c (fun r => { r with powered := false, role := .held }))
    | _ => s
  else s

/-- Deselect a service car whose trip is NONE or WAITING: its entry is dropped, it becomes PARKED and
unpowered, leaves the service order, and PARK is set (R114, R125). -/
def deselect (c : CarIx) (s : State) : State :=
  ((park c (dropEntry c .role s)).updCar c (fun r => { r with pendDesel := false })).noticeCar c .park

/-- The deselection check (R114). -/
def deselectionCheck (c : CarIx) (s : State) : State :=
  if s.role c = .service ∧ (s.car c).pendDesel = true ∧ (s.trip c).state = .none then deselect c s
  else s

/-- The clearance check: in RETURN with clearance NOT_CLEAR, an empty stack gives CLEAR, notice CLEAR,
and stops the return timer (R116). -/
def clearanceCheck (s : State) : State :=
  if s.plan.phase = .returning ∧ s.plan.clearance = .notClear ∧ s.gate.stack = [] then
    ({ s with plan := { s.plan with clearance := .clear, returnTimer := none } }).noticeSupply .clear
  else s

/-! ## Selection -/

/-- The cars in class rank order, then car index (R112). -/
def carsByRank (t : Image) : List CarIx :=
  [0, 1, 2, 3].flatMap (fun r => allCars.filter (fun c => rankOf t c == r))

/-- The car may be selected: PARKED, included, reported available, recall not failed (R112). -/
def canSelect (s : State) (c : CarIx) : Bool :=
  s.role c == .parked && (s.car c).included && (s.car c).available && !(s.car c).recallFailed

/-- The order in which a selection run takes its candidates (R112). -/
def selectionOrder (s : State) : List CarIx :=
  match s.plan.mode with
  | .automatic => carsByRank s.store.active
  | .manual => s.plan.manualList

/-- Select a car: SERVICE, powered, last in the service order, notice SELECTED (R112). -/
def selectCar (c : CarIx) (s : State) : State :=
  let t := s.updCar c (fun r => { r with role := .service, powered := true })
  ({ t with plan := { t.plan with serviceOrder := t.plan.serviceOrder ++ [c] } }).noticeCar c .selected

/-- Take a car if it is a candidate, there is room and it passes the selection fit (R112). -/
def trySelect (s : State) (c : CarIx) : State :=
  if canSelect s c = true ∧ s.serviceCount < nsel s.store.active ∧ s.selectionFits c = true then
    selectCar c s
  else s

/-- A selection run may be made (R112). -/
def selectionAllowed (s : State) : Bool :=
  s.plan.phase == .service && s.account.overcommit == .none &&
  (!s.singleCar || s.recallCount == 0)

/-- A selection run (R112). A candidate that fails is passed over; a selection only adds charges, so one
pass over the candidates takes the first that passes each time. -/
def selectionRun (s : State) : State :=
  if selectionAllowed s then (selectionOrder s).foldl trySelect s else s

/-- The indices a SELECT lists: those of configured cars, each once, in the order received (R113). -/
def manualListOf (s : State) (units : List Byte) : List CarIx :=
  units.foldl
    (fun l u =>
      match carIxOf u with
      | some c => if s.configured c && !l.contains c then l ++ [c] else l
      | none => l) []

/-- Deselect, or mark for deselection, one car that a new manual list leaves out (R114). -/
def leaveOut (s : State) (c : CarIx) : State :=
  if s.plan.manualList.contains c then s
  else if s.role c = .service then
    if (s.trip c).state.still then deselect c s
    else s.updCar c (fun r => { r with pendDesel := true })
  else if s.role c = .lost ∧ (s.car c).preLoss = some .service then
    s.updCar c (fun r => { r with pendDesel := true })
  else s

/-- A complete SELECT: its count unit and its index units (R113, R114). -/
def takeSelect (args : List Byte) (s : State) : State :=
  if (argAt args 0).toNat = 0 then
    let t := s.updAllCars (fun _ r => { r with pendDesel := false })
    { t with plan := { t.plan with mode := .automatic, manualList := [] } }
  else
    let l := manualListOf s (args.drop 1)
    let t := s.updAllCars (fun c r => if l.contains c then { r with pendDesel := false } else r)
    let u := { t with plan := { t.plan with mode := .manual, manualList := l } }
    if u.plan.phase = .service ∨ u.plan.phase = .returning then allCars.foldl leaveOut u else u

/-! ## Recall supervision -/

/-- A car's recall supervision expires (R109). -/
def recallExpires (c : CarIx) (s : State) : State :=
  let t := (s.updCar c (fun r => { r with recallTimer := none })).noticePanel .recallFailed
  if (t.trip c).state.moving then t.updTrip c (fun x => { x with recallOverdue := true })
  else if t.role c = .lost then
    leavePlan c (t.updCar c (fun r =>
      { r with preLoss := some .held, powered := false, recallFailed := true }))
  else
    leavePlan c ((dropEntry c .role t).updCar c (fun r =>
      { r with powered := false, role := .held, recallFailed := true }))

end Sys2Proof.Machine
end

