-- ==== Sys2Proof/Machine/Shedding.lean ====
section
/-!
DEFINITION. The Shed Controller (chapter 7): reliefs, shortfalls, victims and the shed pass.
-/

namespace Sys2Proof.Machine

/-- The sum of the relief amounts of the counting entries that meet a condition (R123). -/
def reliefOf (s : State) (p : Victim → Bool) : Nat :=
  ((s.shed.victims.filter (fun v => v.standing == .counting && p v)).map (fun v => v.relief)).sum

/-- The capacity relief (R123). -/
def capacityRelief (s : State) : Nat := reliefOf s (fun v => v.kind == .capacity)

/-- The feeder relief of feeder f (R123). -/
def feederRelief (f : FeederIx) (s : State) : Nat :=
  reliefOf s (fun v => v.kind == .capacity && v.feeder == f)

/-- The reverse relief (R123). -/
def reverseRelief (s : State) : Nat := reliefOf s (fun v => v.kind == .reverse)

/-- The capacity shortfall (R123). -/
def capacityShort (s : State) : Bool := decide (s.headroom + (capacityRelief s : Int) < 0)

/-- The shortfall of feeder f (R123); not formed under the single-car defaults (R122). -/
def feederShort (f : FeederIx) (s : State) : Bool :=
  !s.singleCar && decide ((s.rating f : Int) < (s.feederLoad f : Int) - (feederRelief f s : Int))

/-- The reverse-power shortfall (R123). -/
def reverseShort (s : State) : Bool :=
  decide ((s.lb : Int) - (s.lr : Int) + (reverseRelief s : Int) < -(s.account.absorb : Int))

/-- The car is on the feeder of the step, if the step is a feeder's (R124). -/
def onFeeder (s : State) (f : Option FeederIx) (c : CarIx) : Bool :=
  match f with
  | some f => s.feeder c == f
  | none => true

/-- Tier 1: the idle service car selected last (R124). -/
def idleVictim (s : State) (f : Option FeederIx) : Option CarIx :=
  s.plan.serviceOrder.reverse.find? (fun c =>
    s.role c == .service && (s.car c).link == .up && (s.trip c).state.still && onFeeder s f c)

/-- A running motoring trip that can be ordered to land, in tiers 2 and 3 (R124). -/
def canLand (s : State) (role : Role) (f : Option FeederIx) (c : CarIx) : Bool :=
  s.role c == role && (s.car c).link == .up && (s.trip c).state == .running &&
  (s.trip c).kind == .motoring && decide (0 < (s.trip c).n) && !(s.trip c).shedOrdered &&
  onFeeder s f c

/-- Tiers 2 and 3: the last-ranked class first, within a class the most recent grant (R124). -/
def landVictim (s : State) (role : Role) (f : Option FeederIx) : Option CarIx :=
  [3, 2, 1, 0].findSome? (fun k =>
    s.gate.stack.reverse.find? (fun c => canLand s role f c && rankOf s.store.active c == k))

/-- The reverse-power victim: the most recent grant among the running REGEN trips (R128). -/
def reverseVictim (s : State) : Option CarIx :=
  s.gate.stack.reverse.find? (fun c =>
    (s.role c == .recall || s.role c == .service) && (s.car c).link == .up &&
    (s.trip c).state == .running && (s.trip c).kind == .regen && decide (0 < (s.trip c).ret) &&
    !(s.trip c).shedOrdered)

/-- A car's shed limit, 2 × (m + 1) × Tland (R126). -/
def shedLimit (s : State) (c : CarIx) : Nat :=
  superviseLimit (multiplier s.store.active) (s.car c).profile.tland

/-- Order a car to land: shed-ordered, notice SHED, and a counting victim entry (R126, R128). -/
def orderToLand (c : CarIx) (kind : VictimKind) (relief : Nat) (s : State) : State :=
  let t := (s.updTrip c (fun x => { x with shedOrdered := true })).noticeCar c .shed
  { t with shed := { t.shed with victims := t.shed.victims ++
      [{ car := c, kind := kind, relief := relief, feeder := t.feeder c, standing := .counting,
         timer := t.startTimer (shedLimit t c) }] } }

/-- One choice of the capacity step or of a feeder step: tier 1, then 2, then 3 (R124); none when no
victim is left (R127). -/
def shedOne (f : Option FeederIx) (s : State) : Option State :=
  match idleVictim s f with
  | some c => some (deselect c s)
  | none =>
    match landVictim s .service f with
    | some c => some (orderToLand c .capacity (s.trip c).n s)
    | none =>
      match landVictim s .recall f with
      | some c => some (orderToLand c .capacity (s.trip c).n s)
      | none => none

/-- One choice of the reverse-power step (R128). -/
def shedReverseOne (s : State) : Option State :=
  match reverseVictim s with
  | some c => some (orderToLand c .reverse (s.trip c).ret s)
  | none => none

/-- A step of the pass: choose victims until the shortfall is gone or none is left (R122). A car is
deselected or ordered at most once, so 24 choices are more than a step can make. -/
def shedStep (short : State → Bool) (one : State → Option State) : Nat → State → State
  | 0, s => s
  | k + 1, s =>
    if short s then
      match one s with
      | some t => shedStep short one k t
      | none => s
    else s

/-- A shed pass: the capacity step, the feeder steps in index order, the reverse-power step (R122). -/
def shedPass (s : State) : State :=
  let a := shedStep capacityShort (shedOne none) 24 s
  let b := allFeeders.foldl (fun t f => shedStep (feederShort f) (shedOne (some f)) 24 t) a
  shedStep reverseShort shedReverseOne 24 b

/-- The supervision timer of a car's victim entry runs (R129). -/
def shedTimerRuns (s : State) (c : CarIx) : Bool :=
  s.shed.victims.any (fun v => v.car == c && v.timer.isSome)

/-- The supervision timer of a car's entry expires: the entry lapses and SHED_OVERDUE is set (R129). -/
def shedExpires (c : CarIx) (s : State) : State :=
  ({ s with shed := { s.shed with victims := s.shed.victims.map (fun (v : Victim) =>
      if v.car = c then { v with standing := .lapsed, timer := none } else v) } }).noticePanel
    .shedOverdue

end Sys2Proof.Machine
end

