-- ==== Sys2Proof/Machine/Closing.lean ====
section
/-!
DEFINITION. Closing an event: what the account hands on (R39) and what the sequencer and the gate run
because of it, from the state before the event and the state its own effects leave. The account sees
only that end state (R30). The order is log 16's: calls and the end of recall, evaluation, re-check,
shed pass, then selection and grant in either order (R35).
-/

namespace Sys2Proof.Machine

/-- What an event asks for beside what its changes cause. -/
structure Cause where
  /-- A SELECT makes a selection run (R113). -/
  select : Bool := false
  /-- The controller's own timer starts a pass (R129). -/
  pass : Bool := false
  deriving DecidableEq, Repr

/-- Some car met `p` before the event and does not after it. -/
def someLeft (p : State → CarIx → Bool) (s0 s : State) : Bool :=
  allCars.any (fun c => p s0 c && !p s c)

/-- Some car meets `p` after the event and did not before it. -/
def someJoined (p : State → CarIx → Bool) (s0 s : State) : Bool :=
  allCars.any (fun c => p s c && !p s0 c)

/-- The supply link became UP. -/
def supplyCameUp (s0 s : State) : Bool := s.supplyLink.link == .up && s0.supplyLink.link != .up

/-- The event is one of those on which the calls run (R107). -/
def callsDue (s0 s : State) : Bool :=
  (s.plan.phase == .recall && s0.plan.phase != .recall) ||
  (s.plan.phase == .service && s0.plan.phase == .returning) ||
  supplyCameUp s0 s || someJoined listed s0 s || someLeft State.inRecall s0 s ||
  (s.singleCar && someLeft State.inService s0 s)

/-- The event is one of those on which the end of the initial recall is checked (R110). -/
def endCheckDue (s0 s : State) : Bool :=
  (s.plan.phase == .recall && s0.plan.phase != .recall) || someLeft listed s0 s ||
  someLeft State.inRecall s0 s

/-- The sequencer's calls and end check (R107, R110). -/
def advancePlan (s0 s : State) : State :=
  let a := if callsDue s0 s then runCalls s else s
  if endCheckDue s0 a && recallOver a then endRecall a else a

/-- The step limit was lowered: it now bounds starts more tightly; 0 is no limit (log 20). -/
def stepLowered (u0 u : Nat) : Bool := decide (u ≠ 0 ∧ (u0 = 0 ∨ u < u0))

/-- The queue's re-check is due (R39, R92). -/
def recheckDue (s0 s : State) : Bool :=
  decide (s.account.offer < s0.account.offer) || decide (s0.rs < s.rs) ||
  stepLowered s0.account.stepLimit s.account.stepLimit

/-- A selection run is due (R112, R39). Leaving role SERVICE, or pre-loss role SERVICE, makes one; leaving role
RECALL does not (log 38), and neither does the loss of a service car's link, since the car goes on counting
toward Nsel (log 39). -/
def selectionDue (k : Cause) (s0 s : State) : Bool :=
  k.select || (s.plan.phase == .service && s0.plan.phase != .service) ||
  someJoined (fun x c => x.role c == .parked) s0 s || someLeft State.inService s0 s ||
  decide (s0.account.offer < s.account.offer) || decide (s.rs < s0.rs) ||
  (s0.account.overcommit == .holding && s.account.overcommit == .none)

/-- A run of the grant rule is due (R66). -/
def grantDue (s0 s : State) : Bool :=
  s0.gate.state != .opened || s.queue.entries != s0.queue.entries ||
  s.queue.headAged != s0.queue.headAged ||
  s.queue.entries.any (fun c => decide (s.trip c ≠ s0.trip c)) ||
  decide (s.figures ≠ s0.figures) || s.account.overcommit != s0.account.overcommit ||
  s.plan.phase != s0.plan.phase || supplyCameUp s0 s ||
  (s.gate.pendingClaim.isSome && s0.gate.pendingClaim.isNone) ||
  (s0.gate.fairness.isSome && s.gate.fairness.isNone)

/-- Run the grant rule if it is due. -/
def grantIfDue (s0 s : State) : State := if grantDue s0 s then grantRule s else s

/-- The re-check, if due. -/
def recheckIfDue (s0 s : State) : State := if recheckDue s0 s then recheck s else s

/-- The Shed Controller's pass on a change while HOLDING, or on its own timer, then the evaluation of
what its deselections leave (R39, R122). A change is one of the held values, the sums or the conditions, so
the AT-SPEED of a trip with S equal to N starts no pass (log 35), and a raise of W, which R39's text hands to
the Start Gate alone, starts one as its table says (log 36). -/
def shedIfDue (k : Cause) (s0 s : State) : State :=
  if s.account.overcommit = .holding ∧ (k.pass = true ∨ s.figures ≠ s0.figures ∨
      s0.account.overcommit ≠ .holding) then
    evaluate (advancePlan s0 (shedPass s))
  else s

/-- The selection run and the grant of one event, in either order when both are due (R35). A selection
changes the account, which the grant rule is handed. -/
def selectAndGrant (k : Cause) (s0 s : State) : State :=
  if selectionDue k s0 s then
    eitherOrder (grantIfDue s0 (selectionRun s))
      (grantIfDue s0 (selectionRun (grantIfDue s0 s)))
  else grantIfDue s0 s

/-- Close an event that began in `s0` and whose own effects gave `s`. -/
def closeEvent (k : Cause) (s0 s : State) : State :=
  selectAndGrant k s0 (shedIfDue k s0 (recheckIfDue s0 (evaluate (advancePlan s0 s))))

end Sys2Proof.Machine
end

