-- ==== Sys2Proof/Machine/Phases.lean ====
section
/-!
DEFINITION. The phase machine (sections 6.2, 6.3, 6.6): what each entry does to the records, the gate,
the queue and the plan, and how a supply report moves the phase.
-/

namespace Sys2Proof.Machine

/-- The role a configured car is given on leaving START or MAINS for a generator phase, were its link
UP (R102). -/
def CarRecord.generatorRole (r : CarRecord) : Role :=
  if r.included && r.available then .held else .unavailable

/-- A configured car's generator-phase role: as above with its link UP, else LOST with that role as its
pre-loss role (R102). -/
def giveRole (r : CarRecord) : CarRecord :=
  if r.link = .up then { r with role := r.generatorRole, preLoss := none }
  else { r with role := .lost, preLoss := some r.generatorRole }

/-- Every configured car is given its generator-phase role (R102). -/
def giveRoles (s : State) : State :=
  s.updAllCars (fun c r => if s.configured c then giveRole r else r)

/-- The recall-failed flags clear on every entry to OUTAGE (R52). -/
def clearRecallFailed (s : State) : State :=
  s.updAllCars (fun _ r => { r with recallFailed := false })

/-- Entry to OUTAGE from START or MAINS (R98, R102, R52, R65). -/
def enterOutage (s : State) : State :=
  clearRecallFailed (giveRoles (closeGate (enterPhase .outage s)))

/-- The settle timer starts for Tsettle when it is stopped, and runs on when it runs (R99). -/
def startSettle (s : State) : State :=
  match s.plan.settleTimer with
  | some _ => s
  | none =>
    { s with plan := { s.plan with settleTimer := s.startTimer (tSettle s.store.active) } }

/-- The settle timer stops. -/
def stopSettle (s : State) : State := { s with plan := { s.plan with settleTimer := none } }

/-- Entry to RETURN from START: roles as on entry to OUTAGE, clearance CLEAR at once, gate OPEN
(R98, R65). -/
def enterReturnFromStart (s : State) : State :=
  let t := openGate (giveRoles (enterPhase .returning s))
  ({ t with plan := { t.plan with clearance := .clear } }).noticeSupply .clear

/-- The list is built afresh from the HELD cars whose recall has not failed (R105). -/
def buildList (s : State) : State :=
  allCars.foldl
    (fun t c =>
      if t.role c = .held ∧ (t.car c).recallFailed = false then joinPlan c t else t)
    { s with plan := { s.plan with recallList := [] } }

/-- The settle timer expires in OUTAGE: RECALL, gate OPEN, list built; calls, end check and grant rule
follow as the event closes (R99, R65, R105). -/
def settleExpires (s : State) : State :=
  buildList (openGate (enterPhase .recall (stopSettle s)))

/-- One record on the generator-loss path (R103, R56, R63, R52). Its waiting entry has been dropped
(R94). A LOST car keeps a pending exclusion (log 15). A car made LOST here has as its pre-loss role the one
R103's table gives its role before (log 33). -/
def loseGenerator (r : CarRecord) : CarRecord :=
  let t := { r with
    trip := { r.trip with state := .none }, powered := false, recallTimer := none,
    slotStart := none, recallFailed := false, pendUnavail := false, pendDesel := false }
  match r.role with
  | .absent => t
  | .lost =>
    match r.preLoss with
    | some .recall | some .service => { t with preLoss := some .held }
    | _ => t
  | role =>
    let after :=
      match role with
      | .recall | .service => if r.pendExcl || r.pendUnavail then .unavailable else .held
      | _ => role
    let u := { t with role := after, pendExcl := false }
    if r.link = .up then u else { u with role := .lost, preLoss := some after }

/-- The generator-loss path: entry to OUTAGE from RECALL, SERVICE or RETURN (R103). The end of an
overcommit is the account's, as the event closes (R38); the controller is idle (R133). -/
def generatorLoss (s : State) : State :=
  let t := closeGate (dropAllEntries (enterPhase .outage s))
  let u := t.updAllCars (fun _ r => loseGenerator r)
  { u with
    plan := { u.plan with
      settleTimer := none, recallDone := false, returnTimer := none, clearance := .notClear,
      recallList := [], serviceOrder := [] }
    shed := .atReset }

/-- One record on entry to MAINS from a generator phase (R104, R56, R63). The slot start time goes with its
supervision (log 34). -/
def returnToMains (r : CarRecord) : CarRecord :=
  { r with
    trip := { r.trip with state := .none }, powered := false, recallTimer := none,
    slotStart := none, pendExcl := false, pendUnavail := false, pendDesel := false,
    preLoss := none,
    role := if r.role = .lost ∨ r.role = .absent then r.role else .free }

/-- An entry to MAINS is uncleared from RECALL or SERVICE, and from RETURN with clearance NOT_CLEAR
(R104). -/
def uncleared (s : State) : Bool :=
  s.plan.phase == .recall || s.plan.phase == .service ||
  (s.plan.phase == .returning && s.plan.clearance == .notClear)

/-- Entry to MAINS from OUTAGE, RECALL, SERVICE or RETURN (R104, R65, R94, R133). -/
def enterMains (s : State) : State :=
  let a := if uncleared s then s.noticePanel .unclearedTransfer else s
  let t := closeGate (dropAllEntries (enterPhase .mains a))
  let u := t.updAllCars (fun _ r => returnToMains r)
  { u with
    plan := { u.plan with
      settleTimer := none, recallDone := false, returnTimer := none, clearance := .notClear,
      recallList := [], serviceOrder := [] }
    shed := .atReset }

/-- One record on entry to RETURN from RECALL or SERVICE: an idle car in recall becomes HELD, a LOST one
through its pre-loss role, unpowered and with its supervision stopped (R115); the slot start time goes with
the slot (log 34). -/
def settleForReturn (r : CarRecord) : CarRecord :=
  if r.trip.state = .none then
    if r.role = .recall then
      { r with role := .held, powered := false, recallTimer := none, slotStart := none }
    else if r.role = .lost ∧ r.preLoss = some .recall then
      { r with preLoss := some .held, powered := false, recallTimer := none, slotStart := none }
    else r
  else r

/-- Entry to RETURN from RECALL or SERVICE (R115, R94, R116). -/
def enterReturn (s : State) : State :=
  let t := (dropAllEntries (enterPhase .returning s)).updAllCars (fun _ r => settleForReturn r)
  clearanceCheck
    { t with plan := { t.plan with returnTimer := t.startTimer (tRet t.store.active) } }

/-- GEN_READY withdraws the retransfer: SERVICE or RECALL by the recall-done flag, and every HELD car
whose recall has not failed and that is not listed joins the plan (R101, R117). -/
def withdrawReturn (s : State) : State :=
  let t := enterPhase (if s.plan.recallDone then .service else .recall)
    { s with plan := { s.plan with clearance := .notClear, returnTimer := none } }
  allCars.foldl
    (fun u c =>
      if u.role c = .held ∧ (u.car c).recallFailed = false ∧ listed u c = false then joinPlan c u
      else u) t

/-- The return timer expires with clearance NOT_CLEAR: clearance is forced (R116). -/
def forceClearance (s : State) : State :=
  (({ s with plan := { s.plan with clearance := .clear, returnTimer := none } }).noticeSupply
    .clear).noticePanel .returnForced

/-- What a recognised supply report does to the phase, by the table of R98 to R101. -/
def reportSupply (r : SupplyState) (s : State) : State :=
  match s.plan.phase, r with
  | .start, .mains => enterPhase .mains s
  | .start, .genStarting | .start, .genLost => enterOutage s
  | .start, .genReady => startSettle (enterOutage s)
  | .start, .retransfer => enterReturnFromStart s
  | .mains, .genStarting | .mains, .genLost => enterOutage s
  | .mains, .genReady => startSettle (enterOutage s)
  | .mains, .mains | .mains, .retransfer => s
  | .outage, .mains => enterMains s
  | .outage, .genReady => startSettle s
  | .outage, .genStarting | .outage, .genLost | .outage, .retransfer => stopSettle s
  | .recall, .mains | .service, .mains => enterMains s
  | .recall, .genStarting | .recall, .genLost => generatorLoss s
  | .service, .genStarting | .service, .genLost => generatorLoss s
  | .recall, .genReady | .service, .genReady => s
  | .recall, .retransfer | .service, .retransfer => enterReturn s
  | .returning, .mains => enterMains s
  | .returning, .genStarting | .returning, .genLost => generatorLoss s
  | .returning, .genReady => withdrawReturn s
  | .returning, .retransfer => s

end Sys2Proof.Machine
end

