-- ==== Sys2Proof/Machine/CarTable.lean ====
section
/-!
DEFINITION. The Car Table (chapter 3): the profile's latches, the stages of a STATE, the loss and return
of a car's link, inclusion, release, and the effects that wait for a trip's end.
-/

namespace Sys2Proof.Machine

/-! ## Profile (section 3.2) -/

/-- The roles in which PROFILE is refused (R44, R45). -/
def Role.refusesProfile : Role → Bool
  | .recall | .service | .lost => true
  | _ => false

/-- A PROFILE has taken these argument units; the field whose last unit has just arrived is clamped and
latched (R45). After the first unit of Pr nothing latches. -/
def latchProfile (args : List Byte) (p : Profile) : Profile :=
  match args.length with
  | 2 => { p with pr := clamp 5 400 (pairOf (argAt args 0) (argAt args 1)) }
  | 3 => { p with b := clamp 30 60 (argAt args 2).toNat }
  | 4 => { p with f := clamp 8 32 (argAt args 3).toNat }
  | 5 => { p with a := clamp 0 40 (argAt args 4).toNat }
  | 6 => { p with g := clamp 0 16 (argAt args 5).toNat }
  | 7 => { p with tland := timeCode (argAt args 6) }
  | 8 => { p with trun := timeCode (argAt args 7) }
  | _ => p

/-! ## Leaving a role -/

/-- A car in role RECALL or SERVICE, idle, or in HELD or PARKED, becomes UNAVAILABLE: a waiting entry is
dropped with reason ROLE (R60, R61, R93). -/
def withdrawCar (c : CarIx) (s : State) : State := makeUnavailable c (dropEntry c .role s)

/-- An exclusion that arrives at a car, by role and trip (R60's table). -/
def applyExclusion (c : CarIx) (s : State) : State :=
  match s.role c with
  | .held | .parked => withdrawCar c s
  | .recall | .service =>
    if (s.trip c).state.still then withdrawCar c s
    else s.updCar c (fun r => { r with pendExcl := true })
  | .lost =>
    if s.plan.phase.generator then s.updCar c (fun r => { r with pendExcl := true }) else s
  | .free | .unavailable | .absent => s

/-! ## The stages of a STATE (R47, R48) -/

/-- The four status fields are replaced together (R47). -/
def recordStatus (c : CarIx) (u : Byte) (s : State) : State :=
  s.updCar c (fun r =>
    { r with position := positionOf u, occupied := occupiedOf u, available := availableOf u,
             motion := motionOf u })

/-- The role a lost car takes on a return with STILL (R54, R63). One whose recall has failed, before its loss
or during it, is HELD at its recall landing too, as R109 says of failed cars (log 37). -/
def CarRecord.returnRole (r : CarRecord) : Role :=
  if r.included = false ∨ r.available = false ∨ r.pendExcl = true ∨ r.pendUnavail = true then
    .unavailable
  else if r.position = .atRecall ∧ r.recallFailed = false then .parked
  else .held

/-- A frozen trip ends outside R76: the trip becomes NONE, the car leaves the stack and the victim set,
the window it holds ends, it is unpowered and out of the plan, its pre-loss role and pending effects
are discarded (R54, R58, R74, R130). In RETURN an empty stack gives clearance (R116). -/
def endFrozen (c : CarIx) (role : Role) (s : State) : State :=
  let t := dropVictim c (endTrip c s)
  let u := t.updCar c (fun r => { r with powered := false, role := role, preLoss := none })
  clearanceCheck (clearPending c (leavePlan c u))

/-- The return of a lost car that reports STILL (R54): a car made HELD is handed back (R57). -/
def returnStill (c : CarIx) (s : State) : State :=
  let role := (s.car c).returnRole
  let t := endFrozen c role s
  if role = .held then handBack c t else t

/-- The pending exclusion held over a loss, dealt with as an exclusion arriving now (R55). -/
def heldExclusion (c : CarIx) (s : State) : State :=
  if (s.car c).pendExcl then
    applyExclusion c (s.updCar c (fun r => { r with pendExcl := false }))
  else s

/-- The return of a lost car that reports MOVING (R55): the pre-loss role is restored (log 22), a
restored HELD is handed back, then a pending exclusion and the deselection check (R114) are dealt
with (log 27). -/
def returnMoving (c : CarIx) (s : State) : State :=
  let role := ((s.car c).preLoss).getD .held
  let t := s.updCar c (fun r => { r with role := role, preLoss := none })
  let u := if role = .held then handBack c t else t
  deselectionCheck c (heldExclusion c u)

/-- Stage 1 of R48: a lost car's return is resolved in a generator phase. -/
def resolveReturn (c : CarIx) (s : State) : State :=
  if s.role c = .lost ∧ s.plan.phase.generator = true then
    match (s.car c).motion with
    | .still => returnStill c s
    | .moving => returnMoving c s
  else s

/-- Stage 2 of R48, the status not available (R61's table). -/
def notAvailable (c : CarIx) (s : State) : State :=
  match s.role c with
  | .held | .parked => withdrawCar c s
  | .recall | .service =>
    if (s.trip c).state.still then withdrawCar c s
    else s.updCar c (fun r => { r with pendUnavail := true })
  | .free | .unavailable | .lost | .absent => s

/-- Stage 2 of R48, the status available (R61). -/
def nowAvailable (c : CarIx) (s : State) : State :=
  let t := s.updCar c (fun r => { r with pendUnavail := false })
  if t.role c = .unavailable ∧ (t.car c).included = true ∧ (t.car c).recallFailed = false then
    handBack c (t.updCar c (fun r => { r with role := .held }))
  else t

/-- Stage 2 of R48. -/
def availabilityRules (c : CarIx) (s : State) : State :=
  if (s.car c).available then nowAvailable c s else notAvailable c s

/-- Stage 3 of R48: motion the part did not permit (R49). -/
def motionCheck (c : CarIx) (s : State) : State :=
  if (s.car c).motion = .moving ∧ s.plan.phase.generator = true ∧ (s.trip c).state = .none then
    (s.noticePanel .unpermittedMotion).noticeSupply .unpermittedMotion
  else s

/-- A complete STATE: the record, then the four stages, each on what the one before left (R47, R48). -/
def takeState (c : CarIx) (u : Byte) (s : State) : State :=
  parkingCheck c (motionCheck c (availabilityRules c (resolveReturn c (recordStatus c u s))))

/-! ## Link loss (section 3.4) -/

/-- A car's link is lost in a generator phase: its waiting entry is dropped with reason LINK, it leaves
the recall list if HELD, its role becomes LOST with the role it had as its pre-loss role (a car already
LOST keeps the one it has, log 14), and CAR_LOST is set. All else is frozen (R51). -/
def freezeCar (c : CarIx) (s : State) : State :=
  let t := dropEntry c .link s
  let u := { t with plan := { t.plan with
    recallList := t.plan.recallList.filter (fun e => e.car != c) } }
  (if u.role c = .lost then u
    else u.updCar c (fun r => { r with preLoss := some r.role, role := .lost })).noticePanel .carLost

/-- A car's link supervision timer expires: LOST, timer stopped, and in a generator phase the car is
frozen (R50, R51, R52). -/
def loseCarLink (c : CarIx) (s : State) : State :=
  let t := s.updCar c (fun r => { r with link := .lost, linkTimer := none })
  if t.plan.phase.generator then freezeCar c t else t

/-! ## Inclusion and release (sections 3.5, 3.6) -/

/-- An INCLUDE that excludes (R60). -/
def excludeCar (c : CarIx) (s : State) : State :=
  if (s.car c).included then
    applyExclusion c ((s.updCar c (fun r => { r with included := false })).noticeCar c .excluded)
  else s

/-- An INCLUDE that includes (R59). A HELD car is handed back when its recall-failed flag has just been
cleared. -/
def admitCar (c : CarIx) (s : State) : State :=
  let t := s.updCar c (fun r =>
    { r with included := true, recallFailed := false, pendExcl := false })
  if t.role c = .unavailable ∧ (t.car c).link = .up ∧ (t.car c).available = true then
    handBack c (t.updCar c (fun r => { r with role := .held }))
  else if t.role c = .held ∧ (s.car c).recallFailed = true then handBack c t
  else t

/-- A complete INCLUDE (R59). -/
def takeInclude (ix code : Byte) (s : State) : State × ReqOutcome :=
  match carIxOf ix with
  | none => (s, .range)
  | some c =>
    if s.configured c = false then (s, .notPermitted)
    else if code = excludeCode then (excludeCar c s, .accepted)
    else (admitCar c s, .accepted)

/-- A complete RELEASE-CAR (R58). -/
def takeRelease (ix : Byte) (s : State) : State × ReqOutcome :=
  match carIxOf ix with
  | none => (s, .range)
  | some c =>
    if s.configured c = false ∨ s.role c ≠ .lost then (s, .notPermitted)
    else if s.plan.phase.generator then (endFrozen c .unavailable s, .accepted)
    else (s.updCar c (fun r => { r with role := .free, preLoss := none }), .accepted)

/-! ## The end of a trip (R76) -/

/-- Stage 2 of R76: a pending exclusion or unavailability makes the car UNAVAILABLE and takes it out of
the victim set (R62). -/
def applyPending (c : CarIx) (s : State) : State :=
  if (s.car c).pendExcl || (s.car c).pendUnavail then makeUnavailable c (dropVictim c s) else s

/-- Stages 1 to 3 of R76. -/
def tripEndStages (c : CarIx) (s : State) : State := dropVictim c (applyPending c (endTrip c s))

/-- Stage 4 of R76. -/
def tripEndChecks (c : CarIx) (s : State) : State :=
  clearanceCheck (deselectionCheck c (parkingCheck c s))

/-- The grant rule run before the parking check, on the account as the stages before it leave it (R76:
"Either order of the grant and the parking is allowed"); where it grants nothing the state is as those
stages left it. -/
def earlyGrant (s0 s : State) : State :=
  let e := evaluate s
  if e.anyCondition then s
  else
    let g := grantIfDue s0 e
    if g.gate.state = e.gate.state then s else g

/-- A trip's end handed on and the event closed, where the parking check is that of a recall car the grant
before it or after it (R76; log 6). The deselection check comes before the grant in either order, and so
does nothing here, since a car in role RECALL is none of a selection. -/
def tripEnded (c : CarIx) (s0 : State) : State :=
  let s := tripEndStages c s0
  let parkedFirst := closeEvent {} s0 (tripEndChecks c s)
  if s.role c = .recall then
    eitherOrder parkedFirst
      (closeEvent {} s0 (clearanceCheck (parkingCheck c (earlyGrant s0 (deselectionCheck c s)))))
  else parkedFirst

/-- START-FAIL (R71): a STARTING trip of a car not LOST ends. -/
def startFailed (c : CarIx) (s : State) : State :=
  if s.role c ≠ .lost ∧ (s.trip c).state = .starting then tripEnded c s else s

/-- STOPPED (R72, R75): a STARTING or RUNNING trip of a car not LOST ends. -/
def carStopped (c : CarIx) (s : State) : State :=
  if s.role c ≠ .lost ∧ (s.trip c).state.moving = true then tripEnded c s else s

end Sys2Proof.Machine
end

