-- ==== Sys2Proof/Machine/SiteStore.lean ====
section
/-!
DEFINITION. The Site Store (chapter 9): taking a SITE-WRITE, the end of programming and of a store
write, the change of the configured count, and what a reset leaves of the store.
-/

namespace Sys2Proof.Machine

/-- The longest programming takes, 100 ms, in tenths of a second (R156). -/
def programLimit : Nat := 1

/-- A complete SITE-WRITE: the first row of R155's table that applies. -/
def takeSiteWrite (t : Image) (s : State) : State × ReqOutcome :=
  if s.plan.phase ≠ .start ∧ s.plan.phase ≠ .mains then (s, .wrongPhase)
  else if s.store.state ≠ .idle then (s, .busy)
  else if validImage t (strappedCount s.store.carsel) = false then (s, .range)
  else
    ({ s with store := { s.store with
        state := .programming, writing := some t, programTimer := s.startTimer programLimit } },
      .accepted)

/-- One record when the configured count changes: newly absent or newly configured ones take their
reset values, the others keep every field (R43). -/
def recountCar (was is : Bool) (r : CarRecord) : CarRecord :=
  if was = is then r else .atReset (if is then .free else .absent)

/-- A port that becomes absent: notice set emptied, request discarded, reply ended, and, its lines ignored,
no unit begun and DOUT high (R41, R43, R143; the rest, log 25). -/
def silencePort (s : State) (c : CarIx) : State :=
  s.updPort (.car c) (fun i =>
    { i with awaitSelect := false, shiftIn := [], shiftOut := [], request := none, reply := none,
             notices := 0 })

/-- A port that becomes configured takes requests from its next select on (R43). -/
def openPort (s : State) (c : CarIx) : State :=
  s.updPort (.car c) (fun i => { i with awaitSelect := i.selLow })

/-- A new active table acts on the car records and ports (R43, R41). -/
def activate (t : Image) (s : State) : State :=
  let a := { s with store := { s.store with active := t, site := .valid } }
  let b := a.updAllCars (fun c r => recountCar (s.configured c) (a.configured c) r)
  let d := (allCars.filter (fun c => s.configured c && !a.configured c)).foldl silencePort b
  (allCars.filter (fun c => !s.configured c && a.configured c)).foldl openPort d

/-- The end of a store write: IDLE, STORE_DONE, and, with SINGLE inactive, the image becomes the active
site table (R156). -/
def endStoreWrite (s : State) : State :=
  let a := ({ s with store := { s.store with
    state := .idle, writing := none, programTimer := none } }).noticePanel .storeDone
  if s.store.single then a
  else activate s.store.nv.image a

/-- Programming ends: the store holds the image and the check word formed over it; the write ends in
START or MAINS and otherwise awaits activation (R156). -/
def programmingEnds (s : State) : State :=
  match s.store.state, s.store.writing with
  | .programming, some t =>
    let a := { s with store := { s.store with
      nv := .formed t, state := .awaitingActivation, writing := none,
      programTimer := none } }
    if s.plan.phase = .start ∨ s.plan.phase = .mains then endStoreWrite a else a
  | _, _ => s

/-- A store write that awaits activation ends at the entry to MAINS, after that entry's own effects
(R156). -/
def activateOnMains (s : State) : State :=
  if s.plan.phase = .mains ∧ s.store.state = .awaitingActivation then endStoreWrite s else s

/-- A mixture of the units of a new image and an earlier one (R157, log 10). -/
def tornImage (new old : Image) (k : Nat) : Image :=
  Vector.ofFn (fun i : Fin 35 => if Config.tornUnit k i.val then new[i] else old[i])

/-- What the store holds after a reset: as before, but torn when programming was cut (R157; log 10). -/
def nvAfterReset (s : State) : NvStore :=
  match s.store.state, s.store.writing with
  | .programming, some t =>
    .spoiled (tornImage t s.store.nv.image s.freeIx) (Config.tornCheck s.freeIx)
  | _, _ => s.store.nv

/-- A complete SUPPLY (R97): an unrecognised code is refused RANGE; a recognised state acts on the
phase, and an entry to MAINS then ends a store write that awaits it. -/
def takeSupply (u : Byte) (s : State) : State × ReqOutcome :=
  match supplyStateOf u with
  | none => (s, .range)
  | some r => (activateOnMains (reportSupply r s), .accepted)

end Sys2Proof.Machine
end

