-- ==== Sys2Proof/Machine/Replies.lean ====
section
/-!
DEFINITION. The units of every reply (sections 8.6 and 8.7, R40, R95, R120, R147, R150, R151, R158), as a
read's snapshot forms them (R143).
-/

namespace Sys2Proof.Machine

/-- A number in one unit. -/
def u8 (n : Nat) : Byte := BitVec.ofNat 8 n

/-- A number in two units, most significant first (R149). -/
def u16 (n : Nat) : List Byte := [u8 (n / 256), u8 n]

/-- A signed number in three units, two's complement, most significant first (R149). -/
def u24 (h : Int) : List Byte :=
  let v : BitVec 24 := BitVec.ofInt 24 h
  [v.extractLsb' 16 8, v.extractLsb' 8 8, v.extractLsb' 0 8]

/-- READ-CAR, 14 units (R150). -/
def carReply (s : State) (c : CarIx) : List Byte :=
  [phaseCode s.plan.phase, roleCode (s.role c), tripStateCode (s.trip c).state,
    verdictCode (s.trip c).verdict, tripFlags (s.trip c), u8 (s.trip c).load] ++
  u16 (s.trip c).s ++ u16 (s.trip c).n ++ u16 (s.trip c).ret ++
  [u8 (queuePosition s c), gateCode s.gate.state]

/-- READ-SUPPLY, 8 units (R120, R150). -/
def supplyReply (s : State) : List Byte :=
  [phaseCode s.plan.phase, clearanceCode s.plan.clearance, gateCode s.gate.state] ++
  u24 s.headroom ++ u16 s.lc

/-- READ-ACCOUNT, 28 units (R40, R150). -/
def accountReply (s : State) : List Byte :=
  [phaseCode s.plan.phase, gateCode s.gate.state] ++ u16 s.account.offer ++
  u16 s.account.stepLimit ++ u16 s.account.absorb ++ u16 s.rs ++ u16 s.lc ++ u16 s.lb ++ u16 s.lr ++
  u24 s.headroom ++ u16 (s.feederLoad 0) ++ u16 (s.feederLoad 1) ++ u16 (s.feederLoad 2) ++
  u16 (s.feederLoad 3) ++ [conditionFlags s]

/-- An index unit. -/
def ixUnit (c : CarIx) : Byte := u8 c.val

/-- READ-PLAN: five lists, each a count unit and its entries (R151). -/
def planReply (s : State) : List Byte :=
  (u8 s.plan.recallList.length :: s.plan.recallList.map (fun e => ixUnit e.car)) ++
  (u8 s.queue.entries.length ::
    s.queue.entries.flatMap (fun c => ixUnit c :: u16 (s.trip c).s)) ++
  (u8 s.gate.stack.length :: s.gate.stack.map ixUnit) ++
  (u8 s.plan.serviceOrder.length :: s.plan.serviceOrder.map ixUnit) ++
  (u8 (carCount s.store.active) ::
    (allCars.filter s.configured).map (fun c => roleCode (s.role c)))

/-- READ-NOTICES, two units: the set as a 16-bit number (R145). -/
def noticesReply (s : State) (p : Port) : List Byte := u16 (s.port p).notices.toNat

/-- READ-IDENT, 6 units (R147). -/
def identReply (s : State) (p : Port) : List Byte :=
  [0x4C, 0x01, u8 (strappedCount s.store.carsel),
    (if s.store.site = .valid then 1 else 0), (if s.store.state = .idle then 0 else 1),
    outcomeCode (s.port p).outcome]

/-- SITE-READ, 35 units: the active site table, which under the single-car defaults is their image form
(R158). -/
def siteReply (s : State) : List Byte := s.store.active.toList

/-- The units of a read's reply on a port (R143). A request that is no read has none. -/
def replyUnits (p : Port) (r : Request) (s : State) : List Byte :=
  match r, p with
  | .readNotices, p => noticesReply s p
  | .readIdent, p => identReply s p
  | .readCar, .car c => carReply s c
  | .readSupply, _ => supplyReply s
  | .siteRead, _ => siteReply s
  | .readAccount, _ => accountReply s
  | .readPlan, _ => planReply s
  | _, _ => []

end Sys2Proof.Machine
end

