-- ==== Sys2Proof/Machine/Ports.lean ====
section
/-!
DEFINITION. The port interfaces (sections 8.1 to 8.5): opcode units, argument units, abandonment,
completion, link supervision, replies, and the passing of complete requests and latched fields to their
owners.
-/

namespace Sys2Proof.Machine

/-- The port takes no unit: RST is held low (section 9.5), the port is absent (R41), or it became
configured within the select that still goes on (R43). -/
def ignores (s : State) (p : Port) : Bool :=
  s.rstLow || (s.port p).awaitSelect ||
  match p with
  | .car c => !s.configured c
  | .supply | .panel => false

/-- Record the outcome of a complete or abandoned request (R142). -/
def setOutcome (p : Port) (o : ReqOutcome) (s : State) : State :=
  s.updPort p (fun i => { i with outcome := o })

/-- Set the request in progress (R138, R139). -/
def setRequest (p : Port) (q : Option InProgress) (s : State) : State :=
  s.updPort p (fun i => { i with request := q })

/-- A request completes on a car port: the link is UP and its timer starts from zero (R50), and in START
or MAINS a LOST car becomes FREE (R56). -/
def carLinkUp (c : CarIx) (s : State) : State :=
  s.updCar c (fun r =>
    let t := { r with link := .up, linkTimer := s.startTimer (tLink s.store.active) }
    if r.role = .lost ∧ s.plan.phase.generator = false then { t with role := .free, preLoss := none }
    else t)

/-- A request completes on the supply port: the link is UP and its timer starts from zero; when it was
not UP the calls and the grant rule run before the request acts (R118, R146). -/
def supplyLinkUp (s : State) : State :=
  let t := { s with supplyLink := ⟨.up, s.startTimer (tLink s.store.active)⟩ }
  if s.supplyLink.link = .up then t else closeEvent {} s t

/-- A request completes on the panel port (R146). -/
def panelLinkUp (s : State) : State :=
  { s with panelLink := ⟨.up, s.startTimer (tLink s.store.active)⟩ }

/-- A request completes on a port: its link is UP (R50, R146). -/
def linkUp (p : Port) (s : State) : State :=
  match p with
  | .car c => carLinkUp c s
  | .supply => supplyLinkUp s
  | .panel => panelLinkUp s

/-- A request completes: none is in progress, the link is UP, the owner acts, and its outcome is
recorded (R137, R138, R141, R142). -/
def complete (p : Port) (act : State → State × ReqOutcome) (s : State) : State :=
  let r := act (linkUp p (setRequest p none s))
  setOutcome p r.2 r.1

/-- An owner's act with its event closed. -/
def closing (k : Cause) (act : State → State × ReqOutcome) (s : State) : State × ReqOutcome :=
  let r := act s
  (closeEvent k s r.1, r.2)

/-- An act that is answered ACCEPTED. -/
def accepting (f : State → State) (s : State) : State × ReqOutcome := (f s, .accepted)

/-! ## Owners' acts that no block's file holds -/

/-- A complete RESERVE (R21); emptying the entry a pending claim names cancels the claim (R79). -/
def takeReserve (entry : Byte) (amount : Nat) (s : State) : State × ReqOutcome :=
  match entryIxOf entry with
  | none => (s, .range)
  | some e =>
    let v := if amount = 0 then none else some (min 4095 amount)
    let t := { s with account := { s.account with reserves := s.account.reserves.set e.val v } }
    if amount = 0 ∧ s.gate.pendingClaim = some e then
      ({ t with gate := { t.gate with pendingClaim := none } }, .accepted)
    else (t, .accepted)

/-- An OFFER has taken these argument units; the field whose second unit has just arrived is clamped and
latched (R18). After the first unit of a pair nothing latches. -/
def latchOffer (args : List Byte) (a : Account) : Account :=
  match args.length with
  | 2 => { a with offer := min 4095 (pairOf (argAt args 0) (argAt args 1)) }
  | 4 => { a with stepLimit := min 4095 (pairOf (argAt args 2) (argAt args 3)) }
  | 6 => { a with absorb := min 1023 (pairOf (argAt args 4) (argAt args 5)) }
  | _ => a

/-- One latch of an OFFER is a change of its own, closed before the next unit (R19). -/
def offerStep (args : List Byte) (s : State) : State :=
  closeEvent {} s { s with account := latchOffer args s.account }

/-- RECOVERED: in RECOVERY the gate becomes OPEN; in any other gate state it is ignored (R77). -/
def takeRecovered (s : State) : State := if s.gate.state = .recovery then openGate s else s

/-- What a complete request other than PROFILE, OFFER and the reads does at its last unit, and its
outcome (R148's owners). -/
def requestAct (p : Port) (r : Request) (args : List Byte) : State → State × ReqOutcome :=
  match r, p with
  | .trip, .car c => closing {} (takeTrip c (argAt args 0) (argAt args 1))
  | .withdraw, .car c => closing {} (accepting (withdrawTrip c))
  | .atSpeed, .car c => closing {} (accepting (atSpeed c))
  | .startFail, .car c => accepting (startFailed c)
  | .stopped, .car c => accepting (carStopped c)
  | .state, .car c => closing {} (accepting (takeState c (argAt args 0)))
  | .supply, _ => closing {} (takeSupply (argAt args 0))
  | .recovered, _ => closing {} (accepting takeRecovered)
  | .reserve, _ => closing {} (takeReserve (argAt args 0) (pairOf (argAt args 1) (argAt args 2)))
  | .gateClaim, _ => closing {} (takeClaim (argAt args 0))
  | .gateRelease, _ => closing {} releaseClaim
  | .select, _ => closing { select := true } (accepting (takeSelect args))
  | .includeCar, _ => closing {} (takeInclude (argAt args 0) (argAt args 1))
  | .releaseCar, _ => closing {} (takeRelease (argAt args 0))
  | .siteWrite, _ => takeSiteWrite (imageOf args)
  | _, _ => accepting id

/-! ## Opcode units -/

/-- A read completes at its opcode unit: the link is UP, then the snapshot is taken and the reply begins
at its unit 0; the held outcome stays (R142, R143). READ-NOTICES keeps what its delivery removes (R145). -/
def startRead (p : Port) (r : Request) (s : State) : State :=
  let t := linkUp p s
  t.updPort p (fun i =>
    { i with reply := some ⟨replyUnits p r t, 0,
        if r = .readNotices then some i.notices else none⟩ })

/-- The car port's PROFILE is refused at its opcode unit in role RECALL, SERVICE or LOST (R44). -/
def profileRefused (p : Port) (s : State) : Bool :=
  match p with
  | .car c => (s.role c).refusesProfile
  | _ => false

/-- An opcode unit that names a request of the port starts it (R137). -/
def startRequest (p : Port) (r : Request) (s : State) : State :=
  if r.isRead then startRead p r s
  else if r = .profile ∧ profileRefused p s = true then
    complete p (fun t => (t, .notPermitted)) s
  else if r.argUnits [] = 0 then complete p (requestAct p r []) s
  else setRequest p (some ⟨r, []⟩) s

/-- Set PROTOCOL on the port (R137). -/
def noticeProtocol (p : Port) (s : State) : State :=
  match p with
  | .car c => s.noticeCar c .protocol
  | .supply => s.noticeSupply .protocol
  | .panel => s.noticePanel .protocol

/-- What an opcode unit first ends: a request in progress is abandoned, a reply ends (R137, R140). -/
def endPrevious (p : Port) (s : State) : State :=
  s.updPort p (fun i =>
    { i with request := none, reply := none,
             outcome := if i.request.isSome then .abandoned else i.outcome })

/-- An opcode unit completes on a port (R137). -/
def opcodeUnit (p : Port) (code : Byte) (s : State) : State :=
  match Request.ofCode p code with
  | some r => startRequest p r (endPrevious p s)
  | none => complete p (fun t => (noticeProtocol p t, .unknown)) (endPrevious p s)

/-! ## Argument units -/

/-- A PROFILE on car c has taken the units of q (R45). At each latch the role is looked at again. -/
def profileUnit (c : CarIx) (q : InProgress) (s : State) : State :=
  if q.args.length < 2 then setRequest (.car c) (some q) s
  else if (s.role c).refusesProfile then complete (.car c) (fun t => (t, .notPermitted)) s
  else
    let latch := fun t : State => t.updCar c (fun r => { r with profile := latchProfile q.args r.profile })
    if q.args.length < 8 then setRequest (.car c) (some q) (latch s)
    else complete (.car c) (accepting latch) s

/-- An OFFER has taken the units of q (R18, R19). -/
def offerUnit (q : InProgress) (s : State) : State :=
  if q.args.length < 6 then setRequest .supply (some q) (offerStep q.args s)
  else complete .supply (accepting (offerStep q.args)) s

/-- A request has taken the units of q, the last of them just now (R138). -/
def handUnit (p : Port) (q : InProgress) (s : State) : State :=
  match q.req, p with
  | .profile, .car c => profileUnit c q s
  | .offer, _ => offerUnit q s
  | r, p =>
    if q.args.length < r.argUnits q.args then setRequest p (some q) s
    else complete p (requestAct p r q.args) s

/-- A reply's next unit is served whole: the reply moves on and wraps at its end, and the first whole
service of unit 1 of a READ-NOTICES reply removes its snapshot's kinds (R136, R143, R145). -/
def serveUnit (rep : Reply) (i : PortIf) : PortIf :=
  let done := decide (rep.next = 1)
  { i with
    notices := if done then i.notices &&& ~~~(rep.snapshot.getD 0) else i.notices
    reply := some ⟨rep.units, if rep.next + 1 < rep.units.length then rep.next + 1 else 0,
      if done then none else rep.snapshot⟩ }

/-- An argument unit completes on a port: it goes to the request in progress, else it has carried a reply
unit out, else it is surplus and discarded (R136, R138). -/
def argUnit (p : Port) (data : Byte) (s : State) : State :=
  match (s.port p).request with
  | some q => handUnit p { q with args := q.args ++ [data] } s
  | none =>
    match (s.port p).reply with
    | some rep => s.updPort p (serveUnit rep)
    | none => s

/-! ## Lines (section 8.1) -/

/-- The nine bits of a unit: its kind, 0 for an opcode and 1 for an argument on DIN, and the data, most
significant bit first. -/
def unitBits (kind : Bool) (data : Byte) : List Bool :=
  [kind, data.getLsbD 7, data.getLsbD 6, data.getLsbD 5, data.getLsbD 4, data.getLsbD 3,
    data.getLsbD 2, data.getLsbD 1, data.getLsbD 0]

/-- The data of the nine bits of a unit (R135). -/
def unitData (bits : List Bool) : Byte :=
  BitVec.ofNat 8 (bits.tail.foldl (fun n b => 2 * n + bitOf b 1) 0)

/-- The data bits that go out beside a unit of this kind: the next reply unit beside an argument unit that
no request takes, else the fill value (R136). -/
def PortIf.dataFor (kind : Bool) (i : PortIf) : Byte :=
  match kind, i.request, i.reply with
  | true, none, some rep => rep.units.getD rep.next 0xFF
  | _, _, _ => 0xFF

/-- One bit is sampled on DIN and one goes out on DOUT. The data going out are chosen once the kind bit is
sampled; the unit going out begins with a 1 (R135, R136). -/
def PortIf.sample (b : Bool) (i : PortIf) : PortIf :=
  let data := if i.shiftIn = [] then i.dataFor b else i.sending
  let got := i.shiftIn ++ [b]
  { i with shiftIn := got, sending := data, shiftOut := (unitBits true data).take got.length }

/-- A rising edge of CLK while SELn is low: the ninth bit completes the unit, whose first bit is its kind,
and the count returns to 0 (R135). -/
def clockBit (p : Port) (s : State) (b : Bool) : State :=
  if ignores s p then s
  else
    let i := (s.port p).sample b
    let t := s.updPort p (fun _ => { i with shiftIn := if i.bitCount < 9 then i.shiftIn else [] })
    if i.bitCount < 9 then t
    else if i.shiftIn.headD true then argUnit p (unitData i.shiftIn) t
    else opcodeUnit p (unitData i.shiftIn) t

/-- SELn is low and a unit begins. Between commands the count is 0 (log 30). -/
def beginUnit (p : Port) (s : State) : State :=
  s.updPort p (fun i => { i with selLow := true, shiftIn := [] })

/-- A whole unit is shifted in (R135). -/
def shiftUnit (p : Port) (kind : Bool) (data : Byte) (s : State) : State :=
  (unitBits kind data).foldl (clockBit p) (beginUnit p s)

/-- SELn rises: the port is idle, the bit count clears, and the next select may begin (R135, R43). -/
def riseSel (p : Port) (s : State) : State :=
  s.updPort p (fun i => { i with selLow := false, awaitSelect := false, shiftIn := [] })

/-- An opcode unit is shifted in. -/
def shiftOpcode (p : Port) (code : Byte) (s : State) : State := shiftUnit p false code s

/-- Argument units are shifted in one after another. -/
def shiftArgs (p : Port) (data : List Byte) (s : State) : State :=
  data.foldl (fun t u => shiftUnit p true u t) s

/-- The units of an arrival are shifted in: the opcode unit if it comes with them, then the argument
units (log 1). -/
def arrive (p : Port) (r : Request) (u : Arrival) (s : State) : State :=
  match u with
  | .opened args => shiftArgs p args (shiftOpcode p r.code s)
  | .resumed args => shiftArgs p args s

/-- These bits are clocked, then SELn rises: a unit not complete is cut, and its bits are discarded
(R135). -/
def cutUnit (p : Port) (bits : List Bool) (s : State) : State :=
  riseSel p (bits.foldl (clockBit p) (beginUnit p s))

end Sys2Proof.Machine
end

