-- ==== Sys2Proof/Machine/CarCommands.lean ====
section
/-!
DEFINITION. The commands of the car ports.
-/

namespace Sys2Proof.Machine

/-- What a command answers. -/
abbrev Answer := Host.Outcome State Fault Refusal

/-- TRIP (R85). -/
def execTrip (c : CarIx) (u : Arrival) (s : State) : Answer := .next (arrive (.car c) .trip u s)

/-- WITHDRAW (R91). -/
def execWithdraw (c : CarIx) (s : State) : Answer :=
  .next (shiftOpcode (.car c) Request.withdraw.code s)

/-- AT_SPEED (R70). -/
def execAtSpeed (c : CarIx) (s : State) : Answer :=
  .next (shiftOpcode (.car c) Request.atSpeed.code s)

/-- START_FAIL (R71). -/
def execStartFail (c : CarIx) (s : State) : Answer :=
  .next (shiftOpcode (.car c) Request.startFail.code s)

/-- STOPPED (R72, R75). -/
def execStopped (c : CarIx) (s : State) : Answer :=
  .next (shiftOpcode (.car c) Request.stopped.code s)

/-- STATE (R47, R48). -/
def execState (c : CarIx) (u : Arrival) (s : State) : Answer := .next (arrive (.car c) .state u s)

/-- PROFILE (R44): the opcode unit. -/
def execProfile (c : CarIx) (s : State) : Answer :=
  .next (shiftOpcode (.car c) Request.profile.code s)

/-- PROFILE_FIELD_LATCH (R45): the unit or units of a field complete. -/
def execProfileFieldLatch (c : CarIx) (units : List Byte) (s : State) : Answer :=
  .next (shiftArgs (.car c) units s)

/-- READ_CAR (R150). -/
def execReadCar (c : CarIx) (s : State) : Answer :=
  .next (shiftOpcode (.car c) Request.readCar.code s)

end Sys2Proof.Machine
end

