-- ==== Sys2Proof/Machine/PanelCommands.lean ====
section
/-!
DEFINITION. The commands of the panel port.
-/

namespace Sys2Proof.Machine

/-- RESERVE (R21). -/
def execReserve (u : Arrival) (s : State) : Answer := .next (arrive .panel .reserve u s)

/-- GATE_CLAIM (R78). -/
def execGateClaim (u : Arrival) (s : State) : Answer := .next (arrive .panel .gateClaim u s)

/-- GATE_RELEASE (R80). -/
def execGateRelease (s : State) : Answer := .next (shiftOpcode .panel Request.gateRelease.code s)

/-- SELECT (R113, R114). -/
def execSelect (u : Arrival) (s : State) : Answer := .next (arrive .panel .select u s)

/-- INCLUDE (R59, R60). -/
def execIncludeCar (u : Arrival) (s : State) : Answer := .next (arrive .panel .includeCar u s)

/-- RELEASE_CAR (R58). -/
def execReleaseCar (u : Arrival) (s : State) : Answer := .next (arrive .panel .releaseCar u s)

/-- SITE_WRITE (R155). -/
def execSiteWrite (u : Arrival) (s : State) : Answer := .next (arrive .panel .siteWrite u s)

/-- SITE_READ (R158). -/
def execSiteRead (s : State) : Answer := .next (shiftOpcode .panel Request.siteRead.code s)

/-- READ_ACCOUNT (R40). -/
def execReadAccount (s : State) : Answer := .next (shiftOpcode .panel Request.readAccount.code s)

/-- READ_PLAN (R151). -/
def execReadPlan (s : State) : Answer := .next (shiftOpcode .panel Request.readPlan.code s)

end Sys2Proof.Machine
end

