-- ==== Sys2Proof/Machine/PortCommands.lean ====
section
/-!
DEFINITION. The commands that any port can bring. The port decides what a unit is from its own state
(log 1): an argument unit goes to the request in progress, else carries a reply unit out, else is surplus.
-/

namespace Sys2Proof.Machine

/-- READ_NOTICES (R145). -/
def execReadNotices (p : Port) (s : State) : Answer :=
  .next (shiftOpcode p Request.readNotices.code s)

/-- READ_IDENT (R147). -/
def execReadIdent (p : Port) (s : State) : Answer := .next (shiftOpcode p Request.readIdent.code s)

/-- UNKNOWN_OPCODE (R137): an opcode unit with this code completes. -/
def execUnknownOpcode (p : Port) (code : Byte) (s : State) : Answer := .next (shiftOpcode p code s)

/-- SURPLUS_UNIT (R138): an argument unit completes. -/
def execSurplusUnit (p : Port) (data : Byte) (s : State) : Answer := .next (shiftArgs p [data] s)

/-- REPLY_UNIT_SERVED (R136): an argument unit completes. -/
def execReplyUnitServed (p : Port) (data : Byte) (s : State) : Answer := .next (shiftArgs p [data] s)

/-- UNIT_CUT (R135): these bits arrive, then SELn rises; none of them is kept. -/
def execUnitCut (p : Port) (bits : List Bool) (s : State) : Answer := .next (cutUnit p bits s)

end Sys2Proof.Machine
end

