-- ==== Sys2Proof/Machine/ResetCommands.lean ====
section
/-!
DEFINITION. The end of the store's programming, reset and its release.
-/

namespace Sys2Proof.Machine

/-- STORE_PROGRAMMING_END (R156). -/
def execStoreProgrammingEnd (s : State) : Answer :=
  .next (if s.store.state = .programming then closeEvent {} s (programmingEnds s) else s)

/-- The state while RST is held low: every block at its after-reset values, no notice on any port, the
store kept as R157 gives, the straps as last sampled until the release samples them (log 11). -/
def heldInReset (s : State) : State :=
  { State.released (nvAfterReset s) s.store.carsel s.store.single s.ports s.now (s.freeIx + 1)
      s.pending with
    ports := portsAtRelease s.ports false, rstLow := true }

/-- RESET (R152, R157). -/
def execReset (s : State) : Answer := .next (heldInReset s)

/-- RESET_RELEASE (R159, R160): the straps are sampled and the store is read. With RST not low there is
nothing to release. -/
def execResetRelease (carsel : BitVec 2) (single : Bool) (s : State) : Answer :=
  .next (if s.rstLow then .released s.store.nv carsel single s.ports s.now s.freeIx s.pending else s)

end Sys2Proof.Machine
end

