-- ==== Sys2Proof/Machine/SupplyCommands.lean ====
section
/-!
DEFINITION. The commands of the supply port.
-/

namespace Sys2Proof.Machine

/-- SUPPLY (R97). -/
def execSupply (u : Arrival) (s : State) : Answer := .next (arrive .supply .supply u s)

/-- OFFER (R18): the opcode unit. -/
def execOffer (s : State) : Answer := .next (shiftOpcode .supply Request.offer.code s)

/-- OFFER_FIELD_LATCH (R19): the units of a field complete. -/
def execOfferFieldLatch (units : List Byte) (s : State) : Answer := .next (shiftArgs .supply units s)

/-- RECOVERED (R77). -/
def execRecovered (s : State) : Answer := .next (shiftOpcode .supply Request.recovered.code s)

/-- READ_SUPPLY (R120). -/
def execReadSupply (s : State) : Answer := .next (shiftOpcode .supply Request.readSupply.code s)

end Sys2Proof.Machine
end

