-- ==== Sys2Proof/Machine/TimerCommands.lean ====
section
/-!
DEFINITION. The expiries of the part's timers. An expiry acts when its timer runs (log 3); a stopped
timer does not expire and the state stays.
-/

namespace Sys2Proof.Machine

/-- CAR_LINK_TIMEOUT (R50, R51, R52). -/
def execCarLinkTimeout (c : CarIx) (s : State) : Answer :=
  .next (if (s.car c).link = .up ∧ (s.car c).linkTimer.isSome then
    closeEvent {} s (loseCarLink c s) else s)

/-- SUPPLY_LINK_TIMEOUT (R118, R146). -/
def execSupplyLinkTimeout (s : State) : Answer :=
  .next (if s.supplyLink.link = .up ∧ s.supplyLink.timer.isSome then
    ({ s with supplyLink := ⟨.lost, none⟩ }).noticePanel .supplySilent else s)

/-- PANEL_LINK_TIMEOUT (R119, R146). -/
def execPanelLinkTimeout (s : State) : Answer :=
  .next (if s.panelLink.link = .up ∧ s.panelLink.timer.isSome then
    ({ s with panelLink := ⟨.lost, none⟩ }).noticeSupply .panelSilent else s)

/-- SETTLE_EXPIRY (R99). -/
def execSettleExpiry (s : State) : Answer :=
  .next (if s.plan.phase = .outage ∧ s.plan.settleTimer.isSome then
    closeEvent {} s (settleExpires s) else s)

/-- RETURN_TIMER_EXPIRY (R116). -/
def execReturnTimerExpiry (s : State) : Answer :=
  .next (if s.plan.phase = .returning ∧ s.plan.clearance = .notClear ∧ s.plan.returnTimer.isSome then
    forceClearance s else s)

/-- RECALL_SUPERVISION_EXPIRY (R109). -/
def execRecallSupervisionExpiry (c : CarIx) (s : State) : Answer :=
  .next (if s.inRecall c = true ∧ (s.car c).recallTimer.isSome then
    closeEvent {} s (recallExpires c s) else s)

/-- START_WINDOW_EXPIRY (R73). -/
def execStartWindowExpiry (s : State) : Answer :=
  .next (if s.gate.state = .carStart ∧ s.gate.startTimer.isSome then startWindowExpires s else s)

/-- PANEL_WINDOW_EXPIRY (R81). -/
def execPanelWindowExpiry (s : State) : Answer :=
  .next (if s.gate.state = .panelStart ∧ s.gate.panelTimer.isSome then
    (endPanelHold s).noticePanel .startOverdue else s)

/-- RECOVERY_EXPIRY (R77). -/
def execRecoveryExpiry (s : State) : Answer :=
  .next (if s.gate.state = .recovery ∧ s.gate.recoveryTimer.isSome then
    closeEvent {} s (openGate s) else s)

/-- FAIRNESS_EXPIRY (R82). -/
def execFairnessExpiry (s : State) : Answer :=
  .next (if s.gate.fairness.isSome then
    closeEvent {} s { s with gate := { s.gate with fairness := none } } else s)

/-- HEAD_AGE_EXPIRY (R89). -/
def execHeadAgeExpiry (s : State) : Answer :=
  .next (if s.queue.headTimer.isSome then
    closeEvent {} s { s with queue := { s.queue with headTimer := none, headAged := true } } else s)

/-- SHED_SUPERVISION_EXPIRY (R129). -/
def execShedSupervisionExpiry (c : CarIx) (s : State) : Answer :=
  .next (if shedTimerRuns s c then closeEvent { pass := true } s (shedExpires c s) else s)

end Sys2Proof.Machine
end

