-- ==== Sys2Proof/Machine/Dispatch.lean ====
section
/-! DEFINITION. Every command and its meaning: one arm a command. -/

namespace Sys2Proof.Machine

def exec (i : Instr) (s : State) : Host.Outcome State Fault Refusal :=
  match i with
  | .trip c u => Sys2Proof.Machine.execTrip c u s
  | .withdraw c => Sys2Proof.Machine.execWithdraw c s
  | .atSpeed c => Sys2Proof.Machine.execAtSpeed c s
  | .startFail c => Sys2Proof.Machine.execStartFail c s
  | .stopped c => Sys2Proof.Machine.execStopped c s
  | .state c u => Sys2Proof.Machine.execState c u s
  | .profile c => Sys2Proof.Machine.execProfile c s
  | .profileFieldLatch c units => Sys2Proof.Machine.execProfileFieldLatch c units s
  | .readCar c => Sys2Proof.Machine.execReadCar c s
  | .supply u => Sys2Proof.Machine.execSupply u s
  | .offer => Sys2Proof.Machine.execOffer s
  | .offerFieldLatch units => Sys2Proof.Machine.execOfferFieldLatch units s
  | .recovered => Sys2Proof.Machine.execRecovered s
  | .readSupply => Sys2Proof.Machine.execReadSupply s
  | .reserve u => Sys2Proof.Machine.execReserve u s
  | .gateClaim u => Sys2Proof.Machine.execGateClaim u s
  | .gateRelease => Sys2Proof.Machine.execGateRelease s
  | .select u => Sys2Proof.Machine.execSelect u s
  | .includeCar u => Sys2Proof.Machine.execIncludeCar u s
  | .releaseCar u => Sys2Proof.Machine.execReleaseCar u s
  | .siteWrite u => Sys2Proof.Machine.execSiteWrite u s
  | .siteRead => Sys2Proof.Machine.execSiteRead s
  | .readAccount => Sys2Proof.Machine.execReadAccount s
  | .readPlan => Sys2Proof.Machine.execReadPlan s
  | .readNotices p => Sys2Proof.Machine.execReadNotices p s
  | .readIdent p => Sys2Proof.Machine.execReadIdent p s
  | .unknownOpcode p code => Sys2Proof.Machine.execUnknownOpcode p code s
  | .surplusUnit p data => Sys2Proof.Machine.execSurplusUnit p data s
  | .replyUnitServed p data => Sys2Proof.Machine.execReplyUnitServed p data s
  | .unitCut p bits => Sys2Proof.Machine.execUnitCut p bits s
  | .carLinkTimeout c => Sys2Proof.Machine.execCarLinkTimeout c s
  | .supplyLinkTimeout => Sys2Proof.Machine.execSupplyLinkTimeout s
  | .panelLinkTimeout => Sys2Proof.Machine.execPanelLinkTimeout s
  | .settleExpiry => Sys2Proof.Machine.execSettleExpiry s
  | .returnTimerExpiry => Sys2Proof.Machine.execReturnTimerExpiry s
  | .recallSupervisionExpiry c => Sys2Proof.Machine.execRecallSupervisionExpiry c s
  | .startWindowExpiry => Sys2Proof.Machine.execStartWindowExpiry s
  | .panelWindowExpiry => Sys2Proof.Machine.execPanelWindowExpiry s
  | .recoveryExpiry => Sys2Proof.Machine.execRecoveryExpiry s
  | .fairnessExpiry => Sys2Proof.Machine.execFairnessExpiry s
  | .headAgeExpiry => Sys2Proof.Machine.execHeadAgeExpiry s
  | .shedSupervisionExpiry c => Sys2Proof.Machine.execShedSupervisionExpiry c s
  | .storeProgrammingEnd => Sys2Proof.Machine.execStoreProgrammingEnd s
  | .reset => Sys2Proof.Machine.execReset s
  | .resetRelease carsel single => Sys2Proof.Machine.execResetRelease carsel single s

end Sys2Proof.Machine
end

