-- ==== Sys2Proof/Machine/Clock.lean ====
section
/-!
DEFINITION. What the part does when no command waits (log 2): a timer that is due expires, and when none
is due a tenth of a second passes.
-/

namespace Sys2Proof.Machine

/-- A command for a timer that is due. -/
def expiryIf (s : State) (t : Timer) (i : Instr) : List Instr :=
  if timerDue s.now t then [i] else []

/-- The expiries that are due now. -/
def dueExpiries (s : State) : List Instr :=
  expiryIf s s.plan.settleTimer .settleExpiry ++
  expiryIf s s.plan.returnTimer .returnTimerExpiry ++
  expiryIf s s.gate.startTimer .startWindowExpiry ++
  expiryIf s s.gate.panelTimer .panelWindowExpiry ++
  expiryIf s s.gate.recoveryTimer .recoveryExpiry ++
  expiryIf s s.gate.fairness .fairnessExpiry ++
  expiryIf s s.queue.headTimer .headAgeExpiry ++
  expiryIf s s.supplyLink.timer .supplyLinkTimeout ++
  expiryIf s s.panelLink.timer .panelLinkTimeout ++
  allCars.flatMap (fun c => expiryIf s (s.car c).linkTimer (.carLinkTimeout c)) ++
  allCars.flatMap (fun c => expiryIf s (s.car c).recallTimer (.recallSupervisionExpiry c)) ++
  s.shed.victims.flatMap (fun v => expiryIf s v.timer (.shedSupervisionExpiry v.car)) ++
  expiryIf s s.store.programTimer .storeProgrammingEnd

/-- A tenth of a second passes. -/
def tick (s : State) : State := { s with now := s.now + 1 }

/-- The step on an empty queue. Of several expiries due together the spec fixes no order, so a free value
picks one (log 4). -/
def idle (s : State) : Host.Outcome State Fault Refusal :=
  match dueExpiries s with
  | [] => .next (tick s)
  | [i] => exec i s
  | i :: is =>
    exec ((i :: is).getD (Config.expiryPick s.freeIx % (is.length + 1)) i)
      { s with freeIx := s.freeIx + 1 }

end Sys2Proof.Machine
end

