-- ==== Sys2Proof/WellFormed.lean ====
section
/-!
DEFINITION. Which commands are well formed: an arrival carries at most the units its request takes, a
resumed one at least one; a field latch carries the one or two units of a field; a cut unit has at
most eight bits, none of them where SELn rises with the count at 0; an unknown code names no request of the port.
-/

namespace Sys2Proof

/-- The units of one arrival fit the request: at most as many as it takes, and at least one when no
opcode unit comes with them (R138, R148). -/
def Arrival.fits (r : Machine.Request) : Arrival → Bool
  | .opened args => decide (args.length ≤ r.argUnits args)
  | .resumed args => decide (1 ≤ args.length ∧ args.length ≤
      match r with
      | .select => 13
      | _ => r.argUnits [])

/-- A field of PROFILE or OFFER comes in one unit or in two (R18, R45). -/
def fieldUnits (units : List Byte) : Bool := decide (1 ≤ units.length ∧ units.length ≤ 2)

/-- Well-formed commands. -/
def Instr.wellFormed : Instr → Bool
  | .trip _ u => u.fits .trip
  | .state _ u => u.fits .state
  | .profileFieldLatch _ units => fieldUnits units
  | .supply u => u.fits .supply
  | .offerFieldLatch units => fieldUnits units
  | .reserve u => u.fits .reserve
  | .gateClaim u => u.fits .gateClaim
  | .select u => u.fits .select
  | .includeCar u => u.fits .includeCar
  | .releaseCar u => u.fits .releaseCar
  | .siteWrite u => u.fits .siteWrite
  | .unknownOpcode p code => (Machine.Request.ofCode p code).isNone
  | .unitCut _ bits => decide (bits.length ≤ 8)
  | .withdraw _ | .atSpeed _ | .startFail _ | .stopped _ | .profile _ | .readCar _ => true
  | .offer | .recovered | .readSupply => true
  | .gateRelease | .siteRead | .readAccount | .readPlan => true
  | .readNotices _ | .readIdent _ | .surplusUnit _ _ | .replyUnitServed _ _ => true
  | .carLinkTimeout _ | .supplyLinkTimeout | .panelLinkTimeout | .settleExpiry => true
  | .returnTimerExpiry | .recallSupervisionExpiry _ | .startWindowExpiry => true
  | .panelWindowExpiry | .recoveryExpiry | .fairnessExpiry | .headAgeExpiry => true
  | .shedSupervisionExpiry _ | .storeProgrammingEnd | .reset | .resetRelease _ _ => true

end Sys2Proof
end

