-- ==== Sys2Proof/Safety.lean ====
section
/-!
DEFINITION. What a sound state of the part is, as the chapters put it, and what a command may reach: the
terms in which claims about runs are made.
-/

namespace Sys2Proof.Machine

/-! ## Ranges -/

/-- Every profile field holds a value within its range (R2, section 3.2). -/
structure Profile.InRange (p : Profile) : Prop where
  pr : 5 ≤ p.pr ∧ p.pr ≤ 400
  b : 30 ≤ p.b ∧ p.b ≤ 60
  f : 8 ≤ p.f ∧ p.f ≤ 32
  a : p.a ≤ 40
  g : p.g ≤ 16
  tland : 1 ≤ p.tland ∧ p.tland ≤ 19200
  trun : 1 ≤ p.trun ∧ p.trun ≤ 19200

/-- The figures of a trip record lie in the ranges of section 1.1; those of reset are 0 (R16). -/
structure Trip.InRange (t : Trip) : Prop where
  load : t.load ≤ 125
  s : t.s ≤ 2800
  n : t.n ≤ 700 ∧ t.n ≤ t.s
  ret : t.ret ≤ 550
  regen : t.kind = .regen → t.n = 0
  motoring : t.kind = .motoring → t.ret = 0

/-- The values the account holds lie in the ranges of section 2.1. -/
structure Account.InRange (a : Account) : Prop where
  offer : a.offer ≤ 4095
  stepLimit : a.stepLimit ≤ 4095
  absorb : a.absorb ≤ 1023
  reserves : ∀ e : EntryIx, a.reserves[e.val].all (fun v => decide (1 ≤ v ∧ v ≤ 4095)) = true

/-- Every profile, every trip record and the account are in range. -/
structure State.InRange (s : State) : Prop where
  profile : ∀ c, (s.car c).profile.InRange
  trip : ∀ c, (s.trip c).InRange
  account : s.account.InRange

/-! ## The Site Store -/

/-- The active table is an image that passed validation, or the single-car defaults of the straps, as the
site state says; an image on its way to the store has passed validation too (R154, R156, R159). -/
structure State.StoreSound (s : State) : Prop where
  defaults : s.store.site = .default → s.store.active = defaultImage (strappedCount s.store.carsel)
  valid : s.store.site = .valid →
    validImage s.store.active (strappedCount s.store.carsel) = true
  forced : s.store.single = true → s.store.site = .default
  programming : s.store.state = .programming →
    s.store.writing.any (fun t => validImage t (strappedCount s.store.carsel)) = true
  awaiting : s.store.state = .awaitingActivation → s.store.nv.usable s.store.carsel = true

/-! ## Absent ports -/

/-- An absent port's record keeps its reset values with role ABSENT, and its port is quiet (R41, R43). -/
abbrev State.AbsentQuiet (s : State) : Prop :=
  ∀ c, s.configured c = false →
    s.car c = .atReset .absent ∧ (s.port (.car c)).request = none ∧
    (s.port (.car c)).reply = none ∧ (s.port (.car c)).notices = 0

/-! ## Ports -/

/-- Between commands no port is inside a unit; what has gone out is a unit beginning with a 1, or its
first bits; a car port alone waits for its next select, while SELn is low; a request in progress is one of
its own port's with argument units still to come; and a reply being served has a next unit and no request
beside it (R43, R135, R136, R138, R143, R148). -/
structure State.PortsSound (s : State) : Prop where
  between : ∀ p, (s.port p).shiftIn = []
  out : ∀ p, ∃ n, (s.port p).shiftOut = (unitBits true (s.port p).sending).take n
  awaits : ∀ p, (s.port p).awaitSelect = true → (s.port p).selLow = true ∧
    (s.port p).request = none ∧ (s.port p).reply = none ∧ ∃ c, p = .car c ∧ s.configured c = true
  own : ∀ p q, (s.port p).request = some q → q.req ∈ requestsOf p
  unfinished : ∀ p q, (s.port p).request = some q → q.args.length < q.req.argUnits q.args
  serves : ∀ p rep, (s.port p).reply = some rep →
    (s.port p).request = none ∧ rep.next < rep.units.length

/-! ## Trips, queue, stack, list and gate -/

/-- The phases in which no lift load is on the generator (R36, R65, R94). -/
def Phase.quiet : Phase → Bool
  | .start | .mains | .outage => true
  | .recall | .service | .returning => false

/-- A car's trip or its powered flag can put a charge on the generator (R25, R26). -/
abbrev State.mayCharge (s : State) (c : CarIx) : Prop :=
  (s.car c).powered = true ∨ (s.trip c).state.moving = true

/-- The queue, the stack, the recall list, the roles and the gate agree with the trip records. -/
structure State.Consistent (s : State) : Prop where
  /-- A car appears at most once in the queue (R83). -/
  queueNodup : s.queue.entries.Nodup
  /-- The queue holds exactly the cars whose trip is WAITING (R83). -/
  queueExact : ∀ c, c ∈ s.queue.entries ↔ (s.trip c).state = .waiting
  /-- A car appears at most once in the stack (R69). -/
  stackNodup : s.gate.stack.Nodup
  /-- The stack holds exactly the cars whose trip is STARTING or RUNNING (R69). -/
  stackExact : ∀ c, c ∈ s.gate.stack ↔ (s.trip c).state.moving = true
  /-- Only a car in role RECALL or SERVICE waits (R83, R85). -/
  waitingRole : ∀ c, (s.trip c).state = .waiting → s.role c = .recall ∨ s.role c = .service
  /-- A car appears at most once in the recall list (R105). -/
  listNodup : (s.plan.recallList.map (fun e => e.car)).Nodup
  /-- The recall list holds cars in role HELD whose recall has not failed (R57, R105). -/
  listHeld : ∀ e ∈ s.plan.recallList,
    s.role e.car = .held ∧ (s.car e.car).recallFailed = false
  /-- A charge is held in role RECALL, SERVICE or LOST alone (R28). -/
  chargedRole : ∀ c, s.mayCharge c → s.role c = .recall ∨ s.role c = .service ∨ s.role c = .lost
  /-- A LOST car that holds a charge was in role RECALL or SERVICE (R28, R51). -/
  chargedLost : ∀ c, s.mayCharge c → s.role c = .lost →
    (s.car c).preLoss = some .recall ∨ (s.car c).preLoss = some .service
  /-- In START, MAINS and OUTAGE every trip is NONE, every car unpowered and the list empty (R20, R103,
  R104). -/
  quiet : s.plan.phase.quiet = true →
    s.plan.recallList = [] ∧ ∀ c, (s.trip c).state = .none ∧ (s.car c).powered = false
  /-- The gate is CLOSED in START, MAINS and OUTAGE, and there alone (R65). -/
  closed : s.gate.state = .closed ↔ s.plan.phase.quiet = true
  /-- A car holds the gate in CAR_START and the panel in PANEL_START; else there is no holder (R64). -/
  holder :
    (s.gate.state = .carStart → ∃ c, s.gate.holder = .car c ∧ (s.trip c).state = .starting) ∧
    (s.gate.state = .panelStart → s.gate.holder = .panel) ∧
    (s.gate.state ≠ .carStart → s.gate.state ≠ .panelStart → s.gate.holder = .none)
  /-- Each window's timer runs in its own gate state alone (R64). -/
  windows : s.gate.startTimer.isSome = (s.gate.state == .carStart) ∧
    s.gate.panelTimer.isSome = (s.gate.state == .panelStart) ∧
    s.gate.recoveryTimer.isSome = (s.gate.state == .recovery)
  /-- A claim is held in PANEL_START alone (R79). -/
  held : s.gate.heldClaim.isSome = (s.gate.state == .panelStart)
  /-- No claim is pending while one is held (R78). -/
  oneClaim : s.gate.heldClaim = none ∨ s.gate.pendingClaim = none
  /-- In CLOSED no claim is pending and no fairness window runs (R64, R65). -/
  closedClaims : s.gate.state = .closed → s.gate.pendingClaim = none ∧ s.gate.fairness = none

/-! ## The account and the controller -/

/-- An overcommit is held exactly while a condition holds, and the controller is ACTIVE exactly then, with
an empty victim set when it is IDLE (R37, R121). -/
structure State.Settled (s : State) : Prop where
  overcommit : s.account.overcommit = .holding ↔ s.anyCondition = true
  active : s.shed.state = .active ↔ s.account.overcommit = .holding
  idle : s.shed.state = .idle → s.shed.victims = []

/-! ## The plan -/

/-- Cars in recall and in service stay within Krec and Nsel, and under the single-car defaults number one
at most together (R111); in START, MAINS and OUTAGE there is none. -/
structure State.PlanBounded (s : State) : Prop where
  recallBound : s.recallCount ≤ krec s.store.active
  serviceBound : s.serviceCount ≤ nsel s.store.active
  jointBound : s.singleCar = true → s.recallCount + s.serviceCount ≤ 1
  quietNone : s.plan.phase.quiet = true → s.recallCount = 0 ∧ s.serviceCount = 0

/-- The calls and the end of the initial recall have been made as far as they go: in RECALL and SERVICE with
the supply link UP, cars wait in the recall list only while Krec is filled or, under the single-car defaults,
a car is in service (R107); and in RECALL a car is in the list or in recall (R110). -/
structure State.CallsMade (s : State) : Prop where
  calls : s.plan.phase = .recall ∨ s.plan.phase = .service → s.supplyLink.link = .up →
    s.plan.recallList = [] ∨ krec s.store.active ≤ s.recallCount ∨
      s.singleCar = true ∧ 0 < s.serviceCount
  goesOn : s.plan.phase = .recall → s.plan.recallList ≠ [] ∨ 0 < s.recallCount

/-- Clearance is CLEAR only in RETURN, the return timer runs only in RETURN before clearance, the settle
timer only in OUTAGE, and the recall-done flag is clear in START, MAINS and OUTAGE (R99, R103, R104,
R116). -/
structure State.PhaseTimed (s : State) : Prop where
  clearance : s.plan.clearance = .clear → s.plan.phase = .returning
  returnTimer : s.plan.returnTimer.isSome = true →
    s.plan.phase = .returning ∧ s.plan.clearance = .notClear
  settleTimer : s.plan.settleTimer.isSome = true → s.plan.phase = .outage
  recallDone : s.plan.phase.quiet = true → s.plan.recallDone = false
  service : s.plan.phase = .service → s.plan.recallDone = true

/-! ## Records and orders -/

/-- The fields of the car records agree with one another and with the phase. -/
structure State.RecordsSound (s : State) : Prop where
  /-- In START and MAINS a configured car is FREE or LOST (R43, R104). -/
  mainsRole : s.plan.phase.generator = false → ∀ c, s.configured c = true →
    s.role c = .free ∨ s.role c = .lost
  /-- In a generator phase a configured car is neither FREE nor ABSENT (R102, R103). -/
  generatorRole : s.plan.phase.generator = true → ∀ c, s.configured c = true →
    s.role c ≠ .free ∧ s.role c ≠ .absent
  /-- A pre-loss role is held in role LOST alone (R51, R54, R55, R58). -/
  preLossLost : ∀ c, (s.car c).preLoss.isSome = true → s.role c = .lost
  /-- In a generator phase a LOST car has a pre-loss role, other than FREE, LOST and ABSENT (R51,
  R102). -/
  preLossRole : s.plan.phase.generator = true → ∀ c, s.role c = .lost →
    (s.car c).preLoss.any (fun r => r != .free && r != .lost && r != .absent) = true
  /-- The link supervision timer runs while the link is UP, and only then (R50). -/
  linkTimer : ∀ c, (s.car c).linkTimer.isSome = true ↔ (s.car c).link = .up
  /-- A slot start time is held by the cars that count toward Krec, and recall supervision runs for such
  cars alone (R107, R109). -/
  recallSlot : ∀ c, (s.car c).slotStart.isSome = true ↔ s.inRecall c = true
  recallTimer : ∀ c, (s.car c).recallTimer.isSome = true → s.inRecall c = true
  /-- The service order holds each car that counts toward Nsel once, and no other (R112). -/
  serviceOrder : s.plan.serviceOrder.Nodup ∧
    ∀ c, c ∈ s.plan.serviceOrder ↔ s.inService c = true
  /-- A car holding a pending effect has a trip STARTING or RUNNING, or is LOST in a generator phase
  (R63). -/
  pendExcl : ∀ c, (s.car c).pendExcl = true →
    (s.trip c).state.moving = true ∨ s.role c = .lost ∧ s.plan.phase.generator = true
  pendUnavail : ∀ c, (s.car c).pendUnavail = true → (s.trip c).state.moving = true
  pendDesel : ∀ c, (s.car c).pendDesel = true →
    s.inService c = true ∧ ((s.trip c).state.moving = true ∨ s.role c = .lost)

/-- The queue and the recall list stand in the orders of R84 and R105, arrival stamps come from the
admissions so far, and the head's age is kept only for a head under bypass (R83, R89). -/
structure State.Ordered (s : State) : Prop where
  queue : s.queue.entries.Pairwise (fun a b => entryBefore s a b = true)
  list : s.plan.recallList.Pairwise (fun a b => recallBefore s.store.active a b = true)
  stamps : ∀ c, (s.trip c).state = .waiting →
    (s.trip c).stamp.any (fun n => decide (n < s.queue.nextStamp)) = true
  headAge : s.queue.headTimer.isSome = true ∨ s.queue.headAged = true →
    bypass s.store.active = true ∧ s.queue.entries ≠ []
  headAgeOnce : s.queue.headTimer.isSome = true → s.queue.headAged = false

/-- The victim set holds at most one entry a car; each is a RUNNING trip that was ordered to land, of the
kind's trip kind and with the trip's figure as its relief (R121, R126, R128). -/
structure State.VictimsSound (s : State) : Prop where
  once : (s.shed.victims.map (fun v => v.car)).Nodup
  running : ∀ v ∈ s.shed.victims, (s.trip v.car).state = .running ∧
    (s.trip v.car).shedOrdered = true
  capacity : ∀ v ∈ s.shed.victims, v.kind = .capacity →
    (s.trip v.car).kind = .motoring ∧ v.relief = (s.trip v.car).n
  reverse : ∀ v ∈ s.shed.victims, v.kind = .reverse →
    (s.trip v.car).kind = .regen ∧ v.relief = (s.trip v.car).ret
  positive : ∀ v ∈ s.shed.victims, 0 < v.relief
  timer : ∀ v ∈ s.shed.victims, v.timer.isSome = true ↔ v.standing = .counting

/-- A sound state: everything above at once. -/
structure State.Sound (s : State) : Prop where
  inRange : s.InRange
  store : s.StoreSound
  absent : s.AbsentQuiet
  ports : s.PortsSound
  consistent : s.Consistent
  settled : s.Settled
  bounded : s.PlanBounded
  called : s.CallsMade
  timed : s.PhaseTimed
  records : s.RecordsSound
  ordered : s.Ordered
  victims : s.VictimsSound

/-! ## What a command may reach -/

/-- The port a command comes in on; none for the part's own timers, its store and the reset pin. -/
def senderOf : Instr → Option Port
  | .trip c _ | .withdraw c | .atSpeed c | .startFail c | .stopped c | .state c _ => some (.car c)
  | .profile c | .profileFieldLatch c _ | .readCar c => some (.car c)
  | .supply _ | .offer | .offerFieldLatch _ | .recovered | .readSupply => some .supply
  | .reserve _ | .gateClaim _ | .gateRelease | .select _ | .includeCar _ | .releaseCar _ => some .panel
  | .siteWrite _ | .siteRead | .readAccount | .readPlan => some .panel
  | .readNotices p | .readIdent p | .unknownOpcode p _ | .surplusUnit p _ => some p
  | .replyUnitServed p _ | .unitCut p _ => some p
  | .carLinkTimeout _ | .supplyLinkTimeout | .panelLinkTimeout | .settleExpiry => none
  | .returnTimerExpiry | .recallSupervisionExpiry _ | .startWindowExpiry | .panelWindowExpiry => none
  | .recoveryExpiry | .fairnessExpiry | .headAgeExpiry | .shedSupervisionExpiry _ => none
  | .storeProgrammingEnd | .reset | .resetRelease _ _ => none

/-- What a car record takes from its port, from the panel's INCLUDE and from link supervision, and from
nothing else (section 3.1's table of who changes each field). -/
structure CarInputs where
  link : Link
  linkTimer : Timer
  profile : Profile
  position : Position
  occupied : Bool
  available : Bool
  motion : Motion
  included : Bool
  deriving DecidableEq, Repr

/-- The inputs of a record. -/
def CarRecord.inputs (r : CarRecord) : CarInputs :=
  ⟨r.link, r.linkTimer, r.profile, r.position, r.occupied, r.available, r.motion, r.included⟩

/-- What of a trip record only a TRIP of its own car writes (R14, R16, R83). -/
structure TripFigures where
  demand : Demand
  purpose : Option Purpose
  stamp : Option Nat
  deriving DecidableEq, Repr

/-- The figures of a trip. -/
def Trip.figures (t : Trip) : TripFigures :=
  ⟨⟨t.direction, t.load, t.kind, t.s, t.n, t.ret⟩, t.purpose, t.stamp⟩

/-- A port's interface but for its notice set. -/
def PortIf.framing (i : PortIf) : PortIf := { i with notices := 0 }

/-- Every kind of the first set is in the second. -/
def noticesKept (a b : BitVec 16) : Prop := a &&& b = a

/-- The values the supply and the panel hold in the account (R17, R20). -/
def Account.limits (a : Account) : Nat × Nat × Nat × Vector (Option Nat) 8 :=
  (a.offer, a.stepLimit, a.absorb, a.reserves)

/-- From `s` to `t` only the part's own decisions moved: roles, trip states, powered flags, lists, gate,
overcommit, controller, timers and notices; no input of any master and no clock. -/
structure OnlyDecisions (s t : State) : Prop where
  store : t.store = s.store
  supplyLink : t.supplyLink = s.supplyLink
  panelLink : t.panelLink = s.panelLink
  limits : t.account.limits = s.account.limits
  mode : t.plan.mode = s.plan.mode ∧ t.plan.manualList = s.plan.manualList
  rstLow : t.rstLow = s.rstLow
  now : t.now = s.now
  pending : t.pending = s.pending
  cars : ∀ c, (t.car c).inputs = (s.car c).inputs
  figures : ∀ c, (t.trip c).figures = (s.trip c).figures
  framing : ∀ p, (t.port p).framing = (s.port p).framing
  notices : ∀ p, noticesKept (s.port p).notices (t.port p).notices

/-! ## What a complete request leaves by itself -/

/-- A port's interface after a whole unit that carried these data bits out: selected, between units, the
nine bits of that unit gone out (R135, R136). -/
def PortIf.carried (data : Byte) (i : PortIf) : PortIf :=
  { i with selLow := true, shiftIn := [], sending := data, shiftOut := unitBits true data }

/-- A port's interface after a request that came whole, from its opcode unit on, and ended with an
outcome (R136, R137, R138, R142). -/
def PortIf.answered (o : ReqOutcome) (i : PortIf) : PortIf :=
  { i.carried 0xFF with request := none, reply := none, outcome := o }

/-- A port's interface after an opcode unit that leaves a request in progress or a reply being served
(R137, R140, R142). -/
def PortIf.opened (q : Option InProgress) (rep : Option Reply) (i : PortIf) : PortIf :=
  { i.carried 0xFF with request := q, reply := rep,
                        outcome := if i.request.isSome then .abandoned else i.outcome }

/-- A port's interface after an argument unit of a request that goes on (R136, R138). -/
def PortIf.taken (q : Option InProgress) (i : PortIf) : PortIf :=
  { i.carried 0xFF with request := q }

/-- A port's interface when the bits of a unit not complete have come in and SELn has risen: the bits in
are gone, as many bits have gone out, and a wait for the next select is over (R135, R136, R43). -/
def PortIf.cut (bits : List Bool) (i : PortIf) : PortIf :=
  match bits with
  | [] => { i with selLow := false, awaitSelect := false, shiftIn := [] }
  | kind :: _ =>
    let data := i.dataFor kind
    { i with selLow := false, awaitSelect := false, shiftIn := [], sending := data,
             shiftOut := (unitBits true data).take bits.length }

/-- The supply link is UP with its timer started from zero (R146). -/
def State.supplyHeard (s : State) : State :=
  { s with supplyLink := ⟨.up, s.startTimer (tLink s.store.active)⟩ }

/-- A request from car c came whole and ended with an outcome, and nothing else happened. -/
def carAnswered (c : CarIx) (o : ReqOutcome) (s : State) : State :=
  (carLinkUp c s).updPort (.car c) (.answered o)

/-- The sender of a port is heard and nothing else happens. -/
def State.heard (s : State) : Port → State
  | .car c => carLinkUp c s
  | .supply => s.supplyHeard
  | .panel => panelLinkUp s

/-- A request on the supply port came whole and ended with an outcome, and nothing else happened. -/
def supplyAnswered (o : ReqOutcome) (s : State) : State :=
  s.supplyHeard.updPort .supply (.answered o)

/-- A request on the panel port came whole and ended with an outcome, and nothing else happened. -/
def panelAnswered (o : ReqOutcome) (s : State) : State :=
  (panelLinkUp s).updPort .panel (.answered o)

/-- A read `i`, request `r` of port `p`, completes (R137, R142, R143): the link is UP, the reply begins at
its unit 0 with these units of the state as it then is, READ-NOTICES keeps the set as it then stands, the
outcome stays but for an abandonment, and no master's input moves. Nothing at all moves beside, but where
the read brings the supply link back (R118). -/
def State.AnswersRead (s : State) (p : Port) (r : Request) (units : State → List Byte) (i : Instr) :
    Prop :=
  ignores s p = false → ∃ t, exec i s = .next t ∧
    let reply : Reply := ⟨units t, 0,
      if r = .readNotices then some (t.port p).notices else none⟩
    let base := (s.heard p).updPort p (.opened none (some reply))
    OnlyDecisions base t ∧ (p ≠ .supply ∨ s.supplyLink.link = .up → t = base)

/-- The gate in RECOVERY, its timer just started (R77). -/
def State.recovering (s : State) : Gate :=
  { s.gate with state := .recovery, holder := .none, startTimer := none, panelTimer := none,
                recoveryTimer := s.startTimer (tRec s.store.active) }

/-- The gate after an act of car c that ends its start window if it holds the gate (R70 to R72). -/
def State.gateAfterWindow (s : State) (c : CarIx) : Gate :=
  if s.gate.state = .carStart ∧ s.gate.holder = .car c then s.recovering else s.gate

/-- The tier of a car's status as it stands, elsewhere than at its recall landing: BETWEEN before AT_LANDING,
and occupied before empty (R105). -/
def CarRecord.tierNow (r : CarRecord) : Nat :=
  if r.position = .between then if r.occupied then 1 else 2 else if r.occupied then 3 else 4

/-- A car taken into the plan by the event that led to `t`: at its recall landing it is PARKED, or selected
since, and not listed; elsewhere it waits in the recall list in the tier of its status, or was called at once
(R105, R106, R107, R112). -/
def State.Joined (t : State) (c : CarIx) : Prop :=
  if (t.car c).position = .atRecall then
    listed t c = false ∧
      (t.role c = .parked ∧ (t.car c).powered = false ∨ t.role c = .service ∧ c ∈ t.plan.serviceOrder)
  else
    t.role c = .held ∧ ⟨c, (t.car c).tierNow⟩ ∈ t.plan.recallList ∨
      t.role c = .recall ∧ (t.car c).slotStart = some t.now ∧ (t.car c).recallTimer.isSome = true

/-- A car made HELD, or restored to it, by an event that began in `s` and led to `t` (R57). -/
def State.HandedBack (s t : State) (c : CarIx) : Prop :=
  if (s.plan.phase = .recall ∨ s.plan.phase = .service) ∧ (s.car c).recallFailed = false then t.Joined c
  else t.role c = .held ∧ listed t c = false

/-- What a removal from the queue or an admission leaves of the head's age (R89): none with bypass off or with
no entry; the same head keeps its timer and flag; a new head has the timer started and the flag clear. -/
def State.HeadFollows (s t : State) : Prop :=
  if bypass t.store.active = false ∨ t.queue.entries = [] then
    t.queue.headTimer = none ∧ t.queue.headAged = false
  else if t.queue.entries.head? = s.queue.entries.head? then
    t.queue.headTimer = s.queue.headTimer ∧ t.queue.headAged = s.queue.headAged
  else t.queue.headTimer = s.startTimer (tAge s.store.active) ∧ t.queue.headAged = false

/-- Car d comes before car c in the order in which a selection run takes its candidates (R112). -/
def State.selectsBefore (t : State) (d c : CarIx) : Prop :=
  match t.plan.mode with
  | .automatic => rankOf t.store.active d < rankOf t.store.active c ∨
      rankOf t.store.active d = rankOf t.store.active c ∧ d.val < c.val
  | .manual => t.plan.manualList.idxOf d < t.plan.manualList.idxOf c

/-- The candidates left for a selection run (R112). -/
def State.Selectable (t : State) (c : CarIx) : Prop :=
  t.role c = .parked ∧ (t.car c).included = true ∧ (t.car c).available = true ∧
  (t.car c).recallFailed = false ∧ (t.plan.mode = .manual → c ∈ t.plan.manualList)

/-- The selection fit (R34). -/
def State.RoomFor (t : State) (c : CarIx) : Prop :=
  (t.car c).profile.a + t.lc + t.rs ≤ t.account.offer ∧
  (t.singleCar = true ∨ t.feederLoad (t.feeder c) + (t.car c).profile.a ≤ t.rating (t.feeder c))

/-- What a selection run in the event from `s` to `t` leaves (R112): in SERVICE with no overcommit, and under
the single-car defaults with no car in recall, the selected cars number Nsel or no candidate left fits; a car
selected is powered, in the service order and told, and no candidate left that came before it fits. -/
structure State.SelectionMade (s t : State) : Prop where
  full : t.plan.phase = .service → t.account.overcommit = .none →
    (t.singleCar = true → t.recallCount = 0) →
    nsel t.store.active ≤ t.serviceCount ∨ ∀ c, t.Selectable c → ¬ t.RoomFor c
  taken : ∀ c, s.inService c = false → t.role c = .service →
    (t.car c).powered = true ∧ c ∈ t.plan.serviceOrder ∧
    (t.configured c = true → t.hasNotice (.car c) CarNotice.selected.number = true) ∧
    ∀ d, t.Selectable d → t.selectsBefore d c → ¬ t.RoomFor d

/-! ## The shed pass -/

/-- The relief of the counting entries that meet a condition (R123). -/
def State.relief (s : State) (p : Victim → Bool) : Nat :=
  ((s.shed.victims.filter fun v => v.standing = .counting && p v).map fun v => v.relief).sum

/-- The capacity shortfall (R123). -/
def State.ShortOfCapacity (s : State) : Prop :=
  s.headroom + s.relief (fun v => v.kind = .capacity) < 0

/-- The shortfall of a feeder (R123), which is not formed under the single-car defaults (R122). -/
def State.ShortOnFeeder (s : State) (f : FeederIx) : Prop :=
  s.singleCar = false ∧
    (s.rating f : Int) < s.feederLoad f - s.relief (fun v => v.kind = .capacity && v.feeder = f)

/-- The reverse-power shortfall (R123). -/
def State.ShortOfReverse (s : State) : Prop :=
  (s.lb : Int) - s.lr + s.relief (fun v => v.kind = .reverse) < -(s.account.absorb : Int)

/-- A tier 1 victim: an idle service car whose link is UP (R124). -/
def State.MayPark (s : State) (c : CarIx) : Prop :=
  s.role c = .service ∧ (s.car c).link = .up ∧ (s.trip c).state.still = true

/-- A tier 2 victim, in role SERVICE, or a tier 3 victim, in role RECALL (R124). -/
def State.MayLand (s : State) (role : Role) (c : CarIx) : Prop :=
  s.role c = role ∧ (s.car c).link = .up ∧ (s.trip c).state = .running ∧
  (s.trip c).kind = .motoring ∧ 0 < (s.trip c).n ∧ (s.trip c).shedOrdered = false

/-- A victim of the reverse-power step (R128). -/
def State.MayLandReverse (s : State) (c : CarIx) : Prop :=
  (s.role c = .service ∨ s.role c = .recall) ∧ (s.car c).link = .up ∧ (s.trip c).state = .running ∧
  (s.trip c).kind = .regen ∧ 0 < (s.trip c).ret ∧ (s.trip c).shedOrdered = false

/-- What a shed pass on `a` leaves in `t`, the overcommit still held (R122 to R128). -/
structure State.ShedMade (a t : State) : Prop where
  /-- With no shortfall nothing is chosen. -/
  spared : ¬ a.ShortOfCapacity → (∀ f, ¬ a.ShortOnFeeder f) → ¬ a.ShortOfReverse →
    t.shed.victims = a.shed.victims ∧ ∀ c, a.role c = .service → t.role c = .service
  /-- A shortfall that stands has no victim left. -/
  capacity : t.ShortOfCapacity → ∀ d, ¬ t.MayPark d ∧ ¬ t.MayLand .service d ∧ ¬ t.MayLand .recall d
  feeder : ∀ d, t.ShortOnFeeder (t.feeder d) →
    ¬ t.MayPark d ∧ ¬ t.MayLand .service d ∧ ¬ t.MayLand .recall d
  reverse : t.ShortOfReverse → ∀ d, ¬ t.MayLandReverse d
  /-- An idle service car taken was selected after each one left on its feeder (R124). -/
  newest : ∀ c d, a.role c = .service → t.role c = .parked → t.feeder d = t.feeder c → t.MayPark d →
    a.plan.serviceOrder.idxOf d < a.plan.serviceOrder.idxOf c
  /-- A car ordered to land has its entry, its supervision and its notice (R126, R128). -/
  ordered : ∀ c, (a.trip c).shedOrdered = false → (t.trip c).shedOrdered = true →
    (∃ v ∈ t.shed.victims, v.car = c ∧ v.feeder = t.feeder c ∧ v.standing = .counting ∧
      v.kind = (if (t.trip c).kind = .motoring then .capacity else .reverse) ∧
      v.relief = (if (t.trip c).kind = .motoring then (t.trip c).n else (t.trip c).ret) ∧
      v.timer = a.startTimer (2 * (multiplier a.store.active + 1) * (a.car c).profile.tland)) ∧
    (t.configured c = true → t.hasNotice (.car c) CarNotice.shed.number = true)
  /-- On its feeder no victim of an earlier tier is left, and none of its own tier of a class ranked after
  its own, or of its class and granted later (R124). -/
  tier : ∀ c d, (a.trip c).shedOrdered = false → (t.trip c).shedOrdered = true →
    (t.trip c).kind = .motoring → t.feeder d = t.feeder c →
    ¬ t.MayPark d ∧ (t.role c = .recall → ¬ t.MayLand .service d) ∧
    (t.MayLand (t.role c) d →
      rankOf t.store.active d < rankOf t.store.active c ∨
      rankOf t.store.active d = rankOf t.store.active c ∧
        t.gate.stack.idxOf d < t.gate.stack.idxOf c)
  /-- A regenerating car ordered to land was granted after each one left (R128). -/
  latest : ∀ c d, (a.trip c).shedOrdered = false → (t.trip c).shedOrdered = true →
    (t.trip c).kind = .regen → t.MayLandReverse d →
    t.gate.stack.idxOf d < t.gate.stack.idxOf c

/-! ## The re-check -/

/-- Car c waits in `s`, the account then changes to that of `a`, and the event that led to `t` has dropped no
entry of c by the step test or the fit at rest: it waits on with its verdict, or is granted, or, an overcommit
condition holding, its car was deselected (R92, R125). -/
def State.KeepsWaiting (s a t : State) (c : CarIx) : Prop :=
  (t.trip c).state = .waiting ∧ (t.trip c).verdict = (s.trip c).verdict ∧ c ∈ t.queue.entries ∨
  (t.trip c).state = .starting ∧ s.gate.state = .opened ∨
  (t.trip c).state = .none ∧ (t.trip c).verdict = .dropped .role ∧ a.anyCondition = true

/-- The re-check of the entries that wait in `s`, by the account of `a`, in the event that led to `t`: one that
fails the step test, or passes it and fails the fit at rest, is dropped with that reason and notice DROPPED,
and no other is (R92). -/
def State.Rechecked (s a t : State) : Prop :=
  ∀ c, (s.trip c).state = .waiting →
    let x := (s.trip c).s + (if (s.car c).powered then 0 else (s.car c).profile.a)
    let stepFails := a.account.stepLimit ≠ 0 ∧ a.account.stepLimit < (s.trip c).s
    let restFails := a.account.offer < x + s.standingAll + a.rs ∨
      s.singleCar = false ∧ s.rating (s.feeder c) < x + s.standingOn (s.feeder c)
    let dropped := fun r : DropReason =>
      (t.trip c).state = .none ∧ (t.trip c).verdict = .dropped r ∧ c ∉ t.queue.entries ∧
      (s.configured c = true → t.hasNotice (.car c) CarNotice.dropped.number = true)
    (stepFails → dropped .step) ∧
    (¬ stepFails → restFails → dropped .noCapacity) ∧
    (¬ stepFails → ¬ restFails → s.KeepsWaiting a t c)

/-! ## The phase -/

/-- The phase a supply report leads to, by the table of R101. -/
def nextPhase (p : Phase) (recallDone : Bool) (r : SupplyState) : Phase :=
  match r with
  | .mains => .mains
  | .genStarting | .genLost => .outage
  | .genReady =>
    match p with
    | .start | .mains | .outage => .outage
    | .recall => .recall
    | .service => .service
    | .returning => if recallDone then .service else .recall
  | .retransfer =>
    match p with
    | .mains => .mains
    | .outage => .outage
    | .start | .recall | .service | .returning => .returning

end Sys2Proof.Machine
end

