-- ==== Sys2Proof/Certificates/Slice0/Obligations.lean ====
section
/-!
DEFINITION. The statements for the provers. OBLIGATIONS.json lists them with the rules they rest on.
-/

open Sys2Proof Sys2Proof.Machine

/-! ## Arithmetic, tests and layouts -/

/-- R1: every time code names (count + 1) times its unit, from 0.1 s to 32 min, bit 7 ignored. -/
def Obligations.TimeCodes : Prop :=
  (∀ u : Byte, timeCode u = (u.toNat % 32 + 1) *
    (match u.toNat / 32 % 4 with
      | 0 => 1
      | 1 => 10
      | 2 => 100
      | _ => 600)) ∧
  (∀ u : Byte, 1 ≤ timeCode u ∧ timeCode u ≤ 19200) ∧
  timeCode 0x27 = 80 ∧ timeCode 0x7F = 19200

/-- R7, R8: the running magnitude, its regeneration limit and when the limit binds. The first clause says
that `ceilDiv` rounds up. -/
def Obligations.RunningMagnitude : Prop :=
  (∀ a b q : Nat, 0 < b → (ceilDiv a b ≤ q ↔ a ≤ q * b)) ∧
  (∀ (p : Profile) (load : Nat) (dir : Direction), p.InRange → load ≤ 125 →
    let e := effImbalance dir (imbalance p load)
    let full := ceilDiv (p.pr * e.natAbs) (100 - p.b)
    let limit := ceilDiv (3 * p.pr) 2
    (0 ≤ e → runningMagnitude p e = full) ∧
    (e < 0 → runningMagnitude p e = min full limit) ∧
    (e = 0 → runningMagnitude p e = 0) ∧
    (load = 100 → dir = .up → runningMagnitude p e = p.pr) ∧
    runningMagnitude p e ≤ 650 ∧ 8 ≤ limit ∧ limit ≤ 600 ∧
    (runningMagnitude p e < full → dir = .down ∧ 100 < load ∧ 50 < p.b)) ∧
  (∀ (p : Profile) (e e' : Int), p.InRange → 0 ≤ e → e ≤ e' →
    runningMagnitude p e ≤ runningMagnitude p e') ∧
  (∀ p : Profile, p.pr = 400 → p.b = 60 →
    runningMagnitude p 65 = 650 ∧ ceilDiv (400 * 65) 40 = 650 ∧ runningMagnitude p (-65) = 600 ∧
    runningMagnitude p (-60) = 600)

/-- R9 to R12, with R3 and R4 for the two arguments: the loss term, the net running power, the kind, the
running demand, the start demand and the return credit of a computation. -/
def Obligations.FiguresOfATrip : Prop :=
  ∀ (p : Profile) (dirCode loadCode : Byte), p.InRange →
    let d := demandOf p dirCode loadCode
    let e := effImbalance d.direction (imbalance p d.load)
    let k := ceilDiv p.pr 8
    let net : Int := if 0 < e then k + runningMagnitude p e else k - runningMagnitude p e
    d.load = min 125 loadCode.toNat ∧
    (dirCode = 0x01 → d.direction = .up) ∧ (dirCode = 0x02 → d.direction = .down) ∧
    (dirCode ≠ 0x01 → dirCode ≠ 0x02 → 0 ≤ e ∧ d.kind = .motoring ∧ d.ret = 0) ∧
    1 ≤ k ∧ k ≤ 50 ∧
    (0 ≤ net → d.kind = .motoring ∧ (d.n : Int) = net ∧ d.ret = 0) ∧
    (net < 0 → d.kind = .regen ∧ d.n = 0 ∧ -net ≤ 550 ∧ d.ret = (-net).toNat * p.g / 16 ∧
      (p.g = 0 → d.ret = 0) ∧ (p.g = 16 → (d.ret : Int) = -net)) ∧
    (e < 0 → 0 ≤ net → d.n < k) ∧
    d.s = ceilDiv ((max net k).toNat * p.f) 8 ∧ (e ≤ 0 → d.s = ceilDiv (k * p.f) 8)

/-- R13: the bounds of every computed figure, and the six cases at the limits. -/
def Obligations.DemandBounds : Prop :=
  (∀ (p : Profile) (dirCode loadCode : Byte), p.InRange →
    let d := demandOf p dirCode loadCode
    let q := -netRunning p (effImbalance d.direction (imbalance p d.load))
    1 ≤ d.s ∧ d.s ≤ 2800 ∧ d.n ≤ d.s ∧ d.n ≤ 700 ∧ d.ret ≤ 550 ∧ (d.ret : Int) ≤ max 0 q ∧
    lossTerm p ≤ d.s ∧ q ≤ (ceilDiv (3 * p.pr) 2 : Int) - (ceilDiv p.pr 8 : Int) ∧
    (p.pr < 400 → q < 550)) ∧
  (∀ p : Profile, p.f = 32 → p.g = 16 → p.pr = 400 → p.b = 60 →
    demandOf p 1 125 = ⟨.up, 125, .motoring, 2800, 700, 0⟩ ∧
    demandOf p 1 0 = ⟨.up, 0, .regen, 200, 0, 550⟩ ∧
    demandOf p 2 120 = ⟨.down, 120, .regen, 200, 0, 550⟩ ∧
    demandOf p 2 125 = ⟨.down, 125, .regen, 200, 0, 550⟩) ∧
  (∀ p : Profile, p.f = 32 → p.g = 16 → p.pr = 400 → p.b = 30 →
    demandOf p 2 125 = ⟨.down, 125, .regen, 200, 0, 493⟩) ∧
  (∀ p : Profile, p.f = 8 → p.g = 0 → p.pr = 5 → p.b = 50 →
    demandOf p 1 50 = ⟨.up, 50, .motoring, 1, 1, 0⟩ ∧
    demandOf p 1 49 = ⟨.up, 49, .motoring, 1, 0, 0⟩)

/-- R26, R27, R29: what a car is charged and credited by the state and kind of its trip, the six sums, and
the ranges they stay in. Under the single-car defaults a feeder carries no car (R24). -/
def Obligations.ChargesAndSums : Prop :=
  (∀ t : Trip,
    (t.state = .none ∨ t.state = .waiting → t.charge = 0 ∧ t.credit = 0) ∧
    (t.state = .starting → t.charge = t.s ∧ t.credit = 0) ∧
    (t.state = .running → t.kind = .motoring → t.charge = t.n ∧ t.credit = 0) ∧
    (t.state = .running → t.kind = .regen → t.charge = 0 ∧ t.credit = t.ret)) ∧
  (∀ r : CarRecord, r.standing = (if r.powered then r.profile.a else 0) ∧
    r.baseCharge = r.standing + (if r.trip.state = .starting ∨
      r.trip.state = .running ∧ r.trip.kind = .motoring then r.trip.n else 0)) ∧
  (∀ s : State,
    s.lc = (allCars.map fun c => (s.car c).standing + (s.trip c).charge).sum ∧
    s.lr = (allCars.map fun c => (s.trip c).credit).sum ∧
    s.lb = (allCars.map fun c => (s.car c).baseCharge).sum ∧
    s.rs = (s.account.reserves.toList.map fun r => r.getD 0).sum ∧
    s.headroom = s.account.offer - s.rs - s.lc ∧
    (s.singleCar = true → ∀ f, s.feederLoad f = 0) ∧
    (s.singleCar = false → ∀ f, s.feederLoad f =
      ((allCars.filter fun c => s.feeder c = f).map fun c =>
        (s.car c).standing + (s.trip c).charge).sum)) ∧
  (∀ s : State, s.InRange →
    s.lc ≤ 34080 ∧ s.lr ≤ 6600 ∧ s.lb ≤ 8880 ∧ s.rs ≤ 32760 ∧ -66840 ≤ s.headroom ∧
    s.headroom ≤ 4095 ∧ (∀ f, s.feederLoad f ≤ 34080) ∧
    ∀ c, (s.trip c).charge ≤ 2800 ∧ (s.trip c).credit ≤ 550 ∧ (s.car c).baseCharge ≤ 740)

/-- R31 to R33: the fit-now test and the fit-at-rest test, and that a trip that fits now also fits at rest
and passes the step test. -/
def Obligations.FitTests : Prop :=
  ∀ (s : State) (c : CarIx),
    let x := (s.trip c).s + (if (s.car c).powered then 0 else (s.car c).profile.a)
    (s.fitsNow c = true ↔
      (x : Int) ≤ s.headroom ∧
      (s.singleCar = true ∨ s.feederLoad (s.feeder c) + x ≤ s.rating (s.feeder c)) ∧
      (s.account.stepLimit = 0 ∨ (s.trip c).s ≤ s.account.stepLimit) ∧
      ((s.trip c).kind = .regen →
        -(s.account.absorb : Int) ≤ (s.lb : Int) - s.lr - (s.trip c).ret)) ∧
    (s.fitsAtRest c = true ↔
      x + s.standingAll + s.rs ≤ s.account.offer ∧
      (s.singleCar = true ∨ x + s.standingOn (s.feeder c) ≤ s.rating (s.feeder c))) ∧
    (s.fitsNow c = true → s.fitsAtRest c = true ∧
      (s.account.stepLimit = 0 ∨ (s.trip c).s ≤ s.account.stepLimit))

/-- R36: the three kinds of overcommit condition and the phases that evaluate them. -/
def Obligations.OvercommitConditions : Prop :=
  ∀ s : State,
    let on := s.plan.phase = .recall ∨ s.plan.phase = .service ∨ s.plan.phase = .returning
    (s.capacityCond = true ↔ on ∧ s.headroom < 0) ∧
    (∀ f, s.feederCond f = true ↔
      on ∧ s.singleCar = false ∧ s.rating f < s.feederLoad f) ∧
    (s.reverseCond = true ↔ on ∧ (s.lb : Int) - s.lr < -(s.account.absorb : Int)) ∧
    (s.anyCondition = true ↔
      s.capacityCond = true ∨ (∃ f, s.feederCond f = true) ∨ s.reverseCond = true) ∧
    ∀ u, { s with account := { s.account with stepLimit := u } }.conditions = s.conditions

/-- R84: purpose, then class rank by the permutation, then arrival; an admitted entry goes ahead of every
entry it precedes and behind every entry that precedes it, and the others keep their order. -/
def Obligations.QueueOrder : Prop :=
  (List.map rankOrder [0, 1, 2, 3, 4, 5] =
    [[.a, .b, .c], [.a, .c, .b], [.b, .a, .c], [.b, .c, .a], [.c, .a, .b], [.c, .b, .a]]) ∧
  (∀ (s : State) (a b : CarIx),
    let ra := rankOf s.store.active a
    let rb := rankOf s.store.active b
    ((s.trip a).purpose = some .recall → (s.trip b).purpose = some .service →
      entryBefore s a b = true ∧ entryBefore s b a = false) ∧
    ((s.trip a).purpose = (s.trip b).purpose → ra < rb →
      entryBefore s a b = true ∧ entryBefore s b a = false) ∧
    ((s.trip a).purpose = (s.trip b).purpose → ra = rb → ∀ m n, (s.trip a).stamp = some m →
      (s.trip b).stamp = some n → m < n → entryBefore s a b = true ∧ entryBefore s b a = false)) ∧
  (∀ (s : State) (c : CarIx) (l : List CarIx),
    l.Pairwise (fun a b => entryBefore s a b = true) →
    (∀ a ∈ l, entryBefore s a c = true ∨ entryBefore s c a = true) →
    ∃ front back, l = front ++ back ∧ insertBy (entryBefore s) c l = front ++ c :: back ∧
      (∀ a ∈ front, entryBefore s a c = true) ∧ (∀ b ∈ back, entryBefore s c b = true))

/-- R149, R150, with R64, R88 and R95: the lengths of the three fixed replies, the codes they carry, and that
a master reads back from them the figures the part holds, the headroom as a signed number of three units. -/
def Obligations.RepliesReadBack : Prop :=
  ∀ (s : State) (c : CarIx), s.InRange →
    let pair := fun (l : List Byte) (i : Nat) => pairOf (argAt l i) (argAt l (i + 1))
    let triple := fun (l : List Byte) (i : Nat) =>
      (argAt l i ++ argAt l (i + 1) ++ argAt l (i + 2) : BitVec 24).toInt
    let r := carReply s c
    let a := accountReply s
    let u := supplyReply s
    let phase : Byte :=
      match s.plan.phase with
      | .start => 0
      | .mains => 1
      | .outage => 2
      | .recall => 3
      | .service => 4
      | .returning => 5
    let role : Byte :=
      match s.role c with
      | .free => 0
      | .held => 1
      | .recall => 2
      | .parked => 3
      | .service => 4
      | .unavailable => 5
      | .lost => 6
      | .absent => 7
    let trip : Byte :=
      match (s.trip c).state with
      | .none => 0
      | .waiting => 1
      | .starting => 2
      | .running => 3
    let verdict : Byte :=
      match (s.trip c).verdict with
      | .none => 0x00
      | .granted => 0x10
      | .refused .busy => 0x25
      | .refused .wrongPhase => 0x26
      | .refused .notPermitted => 0x27
      | .refused .noCapacity => 0x28
      | .refused .step => 0x29
      | .dropped .noCapacity => 0x38
      | .dropped .step => 0x39
      | .dropped .role => 0x3B
      | .dropped .link => 0x3C
      | .dropped .phase => 0x3D
    let gate : Byte :=
      match s.gate.state with
      | .closed => 0
      | .opened => 1
      | .carStart => 2
      | .panelStart => 3
      | .recovery => 4
    r.length = 14 ∧ argAt r 0 = phase ∧ argAt r 1 = role ∧ argAt r 2 = trip ∧ argAt r 3 = verdict ∧
    (argAt r 5).toNat = (s.trip c).load ∧ pair r 6 = (s.trip c).s ∧ pair r 8 = (s.trip c).n ∧
    pair r 10 = (s.trip c).ret ∧
    (argAt r 4).getLsbD 0 = (s.trip c).shedOrdered ∧ (argAt r 4).getLsbD 1 = (s.trip c).startOverdue ∧
    (argAt r 4).getLsbD 2 = (s.trip c).recallOverdue ∧
    (argAt r 4).getLsbD 3 = ((s.trip c).kind == .regen) ∧
    (argAt r 4).getLsbD 4 = ((s.trip c).direction == .down) ∧ (argAt r 4).toNat < 32 ∧
    ((s.trip c).state ≠ .waiting → argAt r 12 = 0) ∧
    (∀ ahead behind : List CarIx, (s.trip c).state = .waiting →
      s.queue.entries = ahead ++ c :: behind → c ∉ ahead → ahead.length < 12 →
      (argAt r 12).toNat = ahead.length + 1) ∧
    argAt r 13 = gate ∧
    a.length = 28 ∧ argAt a 0 = phase ∧ argAt a 1 = gate ∧
    pair a 2 = s.account.offer ∧ pair a 4 = s.account.stepLimit ∧
    pair a 6 = s.account.absorb ∧ pair a 8 = s.rs ∧ pair a 10 = s.lc ∧ pair a 12 = s.lb ∧
    pair a 14 = s.lr ∧ triple a 16 = s.headroom ∧ pair a 19 = s.feederLoad 0 ∧
    pair a 21 = s.feederLoad 1 ∧ pair a 23 = s.feederLoad 2 ∧ pair a 25 = s.feederLoad 3 ∧
    (∀ k : Fin 6, (argAt a 27).getLsbD k.val = s.conditions.getD k.val false) ∧
    (argAt a 27).toNat < 64 ∧
    u.length = 8 ∧ argAt u 0 = phase ∧ argAt u 1 = (if s.plan.clearance = .clear then 1 else 0) ∧
    argAt u 2 = gate ∧ triple u 3 = s.headroom ∧ pair u 6 = s.lc

/-- R151: the length of a READ-PLAN reply, from 5 to 89 units; what each of its units is: the count of each
list and its entries in the list's order, a queue entry with its S in two units, and the role code of each
configured car (R149); and that in START, MAINS and OUTAGE it shows roles only. -/
def Obligations.PlanReplyLength : Prop :=
  ∀ s : State, s.Sound →
    let reply := planReply s
    let unit := fun i => (argAt reply i).toNat
    let queue := 1 + s.plan.recallList.length
    let stack := queue + 1 + 3 * s.queue.entries.length
    let service := stack + 1 + s.gate.stack.length
    let roles := service + 1 + s.plan.serviceOrder.length
    unit 0 = s.plan.recallList.length ∧
    (∀ i e, s.plan.recallList[i]? = some e → unit (1 + i) = e.car.val) ∧
    unit queue = s.queue.entries.length ∧
    (∀ i c, s.queue.entries[i]? = some c →
      unit (queue + 1 + 3 * i) = c.val ∧
      pairOf (argAt reply (queue + 2 + 3 * i)) (argAt reply (queue + 3 + 3 * i)) = (s.trip c).s) ∧
    unit stack = s.gate.stack.length ∧
    (∀ i c, s.gate.stack[i]? = some c → unit (stack + 1 + i) = c.val) ∧
    unit service = s.plan.serviceOrder.length ∧
    (∀ i c, s.plan.serviceOrder[i]? = some c → unit (service + 1 + i) = c.val) ∧
    unit roles = carCount s.store.active ∧
    (∀ c : CarIx, c.val < carCount s.store.active → unit (roles + 1 + c.val) =
      match s.role c with
      | .free => 0
      | .held => 1
      | .recall => 2
      | .parked => 3
      | .service => 4
      | .unavailable => 5
      | .lost => 6
      | .absent => 7) ∧
    (planReply s).length = 5 + s.plan.recallList.length + 3 * s.queue.entries.length +
      s.gate.stack.length + s.plan.serviceOrder.length + carCount s.store.active ∧
    6 ≤ (planReply s).length ∧ (planReply s).length ≤ 89 ∧
    (s.plan.phase.quiet = true →
      planReply s = [0, 0, 0, 0, u8 (carCount s.store.active)] ++
        (allCars.filter fun c => c.val < carCount s.store.active).map fun c => roleCode (s.role c))

/-! ## Steps, reset and requests -/

/-- A step runs the command at the front of the queue with the queue's rest. -/
def Obligations.StepRunsFront : Prop :=
  ∀ (s : State) (i : Instr) (rest : List Instr), s.pending = i :: rest →
    step s = exec i { s with pending := rest }

/-- The model's choice (log 2, 4): with no command waiting a step is a tenth of a second when no timer is
due, and else the expiry of one that is due. -/
def Obligations.StepOnAnEmptyQueue : Prop :=
  ∀ s : State, s.pending = [] →
    (dueExpiries s = [] → step s = .next { s with now := s.now + 1 }) ∧
    (∀ i, dueExpiries s = [i] → step s = exec i s) ∧
    (2 ≤ (dueExpiries s).length → ∃ i ∈ dueExpiries s,
      step s = exec i { s with freeIx := s.freeIx + 1 })

/-- The state after reset is sound (R160). Its straps, its blank store and what it keeps over reset are the
model's choices (log 7, 8, 12). -/
def Obligations.ResetIsSound : Prop := State.reset.Sound

/-- R137, R148: the request that each code names on each port, with its argument units; each port names each
of its requests by the request's own code, and no other code names a request there. The codes of a SUPPLY's
state and the items of a STATE unit (R47), and the numbers of the notice kinds (R144). -/
def Obligations.RequestCodes : Prop :=
  (∀ (p : Port) (r : Request), r ∈ requestsOf p → Request.ofCode p r.code = some r) ∧
  (∀ (p : Port) (code : Byte) (r : Request), Request.ofCode p code = some r →
    r ∈ requestsOf p ∧ r.code = code) ∧
  (∀ (c : CarIx) (code : Byte), Request.ofCode (.car c) code =
    match code.toNat with
    | 0x01 => some .readNotices
    | 0x02 => some .readIdent
    | 0x10 => some .trip
    | 0x11 => some .withdraw
    | 0x12 => some .atSpeed
    | 0x13 => some .startFail
    | 0x14 => some .stopped
    | 0x18 => some .state
    | 0x19 => some .profile
    | 0x1C => some .readCar
    | _ => none) ∧
  (∀ code : Byte, Request.ofCode .supply code =
    match code.toNat with
    | 0x01 => some .readNotices
    | 0x02 => some .readIdent
    | 0x20 => some .supply
    | 0x21 => some .offer
    | 0x22 => some .recovered
    | 0x2C => some .readSupply
    | _ => none) ∧
  (∀ code : Byte, Request.ofCode .panel code =
    match code.toNat with
    | 0x01 => some .readNotices
    | 0x02 => some .readIdent
    | 0x30 => some .reserve
    | 0x31 => some .gateClaim
    | 0x32 => some .gateRelease
    | 0x33 => some .select
    | 0x34 => some .includeCar
    | 0x35 => some .releaseCar
    | 0x38 => some .siteWrite
    | 0x39 => some .siteRead
    | 0x3C => some .readAccount
    | 0x3D => some .readPlan
    | _ => none) ∧
  (∀ (r : Request) (args : List Byte), r.argUnits args =
    match r with
    | .state | .supply | .gateClaim | .releaseCar => 1
    | .trip | .includeCar => 2
    | .reserve => 3
    | .offer => 6
    | .profile => 8
    | .siteWrite => 35
    | .select => if args = [] then 1 else 1 + min 12 (args.getD 0 0).toNat
    | _ => 0) ∧
  (∀ u : Byte, supplyStateOf u =
      (match u.toNat with
      | 1 => some .mains
      | 2 => some .genStarting
      | 3 => some .genReady
      | 4 => some .retransfer
      | 5 => some .genLost
      | _ => none) ∧
    positionOf u =
      (match u.toNat / 64 with
      | 1 => .atRecall
      | 2 => .atLanding
      | _ => .between) ∧
    occupiedOf u = decide (u.toNat / 16 % 4 ≠ 1) ∧ availableOf u = decide (u.toNat / 4 % 4 = 2) ∧
    motionOf u = (if u.toNat % 4 = 1 then .still else .moving)) ∧
  [CarNotice.phase, .recallCall, .permit, .refused, .dropped, .shed, .park, .selected, .excluded,
    .protocol].map CarNotice.number = List.range 10 ∧
  [SupplyNotice.phase, .clear, .overcommit, .overEnd, .panelSilent, .unpermittedMotion,
    .protocol].map SupplyNotice.number = List.range 7 ∧
  [PanelNotice.phase, .overcommit, .overEnd, .shedOverdue, .carLost, .recallFailed, .recallDone,
    .startOverdue, .panelGrant, .unclearedTransfer, .returnForced, .unpermittedMotion, .siteInvalid,
    .supplySilent, .storeDone, .protocol].map PanelNotice.number = List.range 16

/-- R139: a request paused between units goes on where it stopped. For each request that takes argument
units together, the units that came with the opcode and those of a later command act as all of them
coming at once. -/
def Obligations.PausedRequests : Prop :=
  ∀ (s t : State) (c : CarIx) (a b : List Byte),
    (exec (.trip c (.opened a)) s = .next t →
      exec (.trip c (.resumed b)) t = exec (.trip c (.opened (a ++ b))) s) ∧
    (exec (.state c (.opened a)) s = .next t →
      exec (.state c (.resumed b)) t = exec (.state c (.opened (a ++ b))) s) ∧
    (exec (.supply (.opened a)) s = .next t →
      exec (.supply (.resumed b)) t = exec (.supply (.opened (a ++ b))) s) ∧
    (exec (.reserve (.opened a)) s = .next t →
      exec (.reserve (.resumed b)) t = exec (.reserve (.opened (a ++ b))) s) ∧
    (exec (.gateClaim (.opened a)) s = .next t →
      exec (.gateClaim (.resumed b)) t = exec (.gateClaim (.opened (a ++ b))) s) ∧
    (exec (.select (.opened a)) s = .next t →
      exec (.select (.resumed b)) t = exec (.select (.opened (a ++ b))) s) ∧
    (exec (.includeCar (.opened a)) s = .next t →
      exec (.includeCar (.resumed b)) t = exec (.includeCar (.opened (a ++ b))) s) ∧
    (exec (.releaseCar (.opened a)) s = .next t →
      exec (.releaseCar (.resumed b)) t = exec (.releaseCar (.opened (a ++ b))) s) ∧
    (exec (.siteWrite (.opened a)) s = .next t →
      exec (.siteWrite (.resumed b)) t = exec (.siteWrite (.opened (a ++ b))) s)

/-! ## Commands of the car ports -/

/-- TRIP: a fresh trip that passes the step test and the fit-at-rest test waits while the gate is not OPEN,
and in an OPEN gate with no claim pending while no car grant is allowed, or when it is alone and the headroom
does not cover it (R14, R67, R86). Admitted as the head it starts the head's age timer anew; behind the head it
leaves it as it was (R89). -/
def Obligations.TripWaits : Prop :=
  ∀ (s : State) (c : CarIx) (d l : Byte),
    ignores s (.car c) = false →
    s.plan.phase = .recall ∨ s.plan.phase = .service →
    s.role c = .recall ∨ s.role c = .service →
    (s.trip c).state = .none →
    s.Settled →
    let w := demandOf (s.car c).profile d l
    let x := w.s + (if (s.car c).powered then 0 else (s.car c).profile.a)
    s.gate.state ≠ .opened ∨ s.gate.pendingClaim = none ∧
      (s.account.overcommit = .holding ∨ s.supplyLink.link ≠ .up ∨
        s.queue.entries = [] ∧ s.headroom < (x : Int)) →
    s.account.stepLimit = 0 ∨ w.s ≤ s.account.stepLimit →
    x + s.standingAll + s.rs ≤ s.account.offer →
    s.singleCar = true ∨ x + s.standingOn (s.feeder c) ≤ s.rating (s.feeder c) →
    ∃ t, exec (.trip c (.opened [d, l])) s = .next t ∧
      t.car c = { s.car c with
        link := .up, linkTimer := s.startTimer (tLink s.store.active),
        trip := { (s.trip c).withDemand w with
          state := .waiting, verdict := .none, stamp := some s.queue.nextStamp,
          purpose := some (if s.role c = .recall then .recall else .service) } } ∧
      (∀ e, e ≠ c → t.car e = s.car e) ∧
      t.ports = (carAnswered c .accepted s).ports ∧
      c ∈ t.queue.entries ∧ t.queue.nextStamp = s.queue.nextStamp + 1 ∧
      t.queue.entries.filter (fun e => e != c) = s.queue.entries.filter (fun e => e != c) ∧
      s.HeadFollows t ∧
      t = { s with cars := t.cars, ports := t.ports, queue := t.queue }

/-- TRIP: a trip that fits now, into an empty queue with the gate OPEN and no claim pending, is granted
within the same request (R67, R68, R86). -/
def Obligations.TripGrantedAtOnce : Prop :=
  ∀ (s : State) (c : CarIx) (d l : Byte),
    ignores s (.car c) = false →
    s.plan.phase = .recall ∨ s.plan.phase = .service →
    s.role c = .recall ∨ s.role c = .service →
    (s.trip c).state = .none →
    s.Settled → s.account.overcommit = .none → s.supplyLink.link = .up →
    s.gate.state = .opened → s.gate.pendingClaim = none → s.queue.entries = [] →
    let w := demandOf (s.car c).profile d l
    let x := w.s + (if (s.car c).powered then 0 else (s.car c).profile.a)
    (x : Int) ≤ s.headroom →
    s.singleCar = true ∨ s.feederLoad (s.feeder c) + x ≤ s.rating (s.feeder c) →
    s.account.stepLimit = 0 ∨ w.s ≤ s.account.stepLimit →
    (w.kind = .regen → -(s.account.absorb : Int) ≤ (s.lb : Int) - s.lr - w.ret) →
    ∃ t, exec (.trip c (.opened [d, l])) s = .next t ∧
      t.car c = { s.car c with
        link := .up, linkTimer := s.startTimer (tLink s.store.active), powered := true,
        trip := { (s.trip c).withDemand w with
          state := .starting, verdict := .granted, stamp := some s.queue.nextStamp,
          startOverdue := false, shedOrdered := false,
          purpose := some (if s.role c = .recall then .recall else .service) } } ∧
      (∀ e, e ≠ c → t.car e = s.car e) ∧
      t.ports = ((carAnswered c .accepted s).noticeCar c .permit).ports ∧
      t.gate = { s.gate with
        state := .carStart, holder := .car c, startTimer := s.startTimer (tStart s.store.active),
        fairness := none, stack := s.gate.stack ++ [c] } ∧
      t.queue = { entries := [], headTimer := none, headAged := false,
                  nextStamp := s.queue.nextStamp + 1 } ∧
      t = { s with cars := t.cars, ports := t.ports, gate := t.gate, queue := t.queue } ∧
      t.lc = s.lc + x ∧ 0 ≤ t.headroom

/-- TRIP: the screen's four refusing rows, the first that applies, keep the trip's figures (R85, R88). A
fresh trip that fails the step test, or else the fit-at-rest test, is refused STEP or NO_CAPACITY with its
new figures in the record (R86, R14). An update of a WAITING trip writes its new figures: passing both tests
it keeps its place, stamp, purpose and verdict; failing one it is taken out and refused (R87). -/
def Obligations.TripScreened : Prop :=
  ∀ (s : State) (c : CarIx) (d l : Byte),
    ignores s (.car c) = false → s.Settled →
    let refused := fun (f : Trip → Trip) (r : RefuseReason) =>
      ((carAnswered c r.outcome s).updTrip c (fun t => { f t with verdict := .refused r })).noticeCar c
        .refused
    (c ∉ s.queue.entries →
      (s.plan.phase = .start ∨ s.plan.phase = .mains →
        exec (.trip c (.opened [d, l])) s = .next (carAnswered c .notRequired s)) ∧
      (s.plan.phase = .outage ∨ s.plan.phase = .returning →
        exec (.trip c (.opened [d, l])) s = .next (refused id .wrongPhase)) ∧
      (s.plan.phase = .recall ∨ s.plan.phase = .service →
        s.role c ≠ .recall ∧ s.role c ≠ .service →
        exec (.trip c (.opened [d, l])) s = .next (refused id .notPermitted)) ∧
      (s.plan.phase = .recall ∨ s.plan.phase = .service →
        s.role c = .recall ∨ s.role c = .service →
        (s.trip c).state = .starting ∨ (s.trip c).state = .running →
        exec (.trip c (.opened [d, l])) s = .next (refused id .busy))) ∧
    (s.plan.phase = .recall ∨ s.plan.phase = .service →
      s.role c = .recall ∨ s.role c = .service →
      let w := demandOf (s.car c).profile d l
      let x := w.s + (if (s.car c).powered then 0 else (s.car c).profile.a)
      let stepFails := s.account.stepLimit ≠ 0 ∧ s.account.stepLimit < w.s
      let restFails := s.account.offer < x + s.standingAll + s.rs ∨
        s.singleCar = false ∧ s.rating (s.feeder c) < x + s.standingOn (s.feeder c)
      let gone := fun t : Trip => { t.withDemand w with state := .none }
      (c ∉ s.queue.entries → (s.trip c).state = .none →
        (stepFails → exec (.trip c (.opened [d, l])) s = .next (refused (·.withDemand w) .step)) ∧
        (¬ stepFails → restFails →
          exec (.trip c (.opened [d, l])) s = .next (refused (·.withDemand w) .noCapacity))) ∧
      (s.Consistent → (s.trip c).state = .waiting →
        (¬ stepFails → ¬ restFails →
          let updated := (carAnswered c .accepted s).updTrip c (·.withDemand w)
          ∃ t, exec (.trip c (.opened [d, l])) s = .next t ∧ OnlyDecisions updated t ∧
            ((t.trip c).state = .waiting →
              t.car c = updated.car c ∧ c ∈ t.queue.entries ∧
              t.queue.nextStamp = s.queue.nextStamp) ∧
            (s.gate.state ≠ .opened → t = updated)) ∧
        (∀ r, r = .step ∧ stepFails ∨ r = .noCapacity ∧ ¬ stepFails ∧ restFails →
          ∃ t, exec (.trip c (.opened [d, l])) s = .next t ∧ OnlyDecisions (refused gone r) t ∧
            t.car c = (refused gone r).car c ∧ c ∉ t.queue.entries ∧
            (s.gate.state ≠ .opened → t.cars = (refused gone r).cars ∧
              t.ports = (refused gone r).ports ∧
              t.queue.entries = s.queue.entries.filter (fun e => e != c) ∧
              t = { s with cars := t.cars, ports := t.ports, queue := t.queue }))))

/-- WITHDRAW takes a waiting entry out, and is ignored for any other trip (R91). While the gate is not OPEN
nothing else follows but for the age of a new head (R89); in an OPEN gate the grant rule may. -/
def Obligations.WithdrawCompletes : Prop :=
  ∀ (s : State) (c : CarIx),
    ignores s (.car c) = false → s.Settled →
    ((s.trip c).state = .waiting →
      ∃ t, exec (.withdraw c) s = .next t ∧ OnlyDecisions (carAnswered c .accepted s) t ∧
        (t.trip c).state = .none ∧ (t.trip c).verdict = .none ∧ c ∉ t.queue.entries ∧
        (s.gate.state ≠ .opened →
          t.cars = ((carAnswered c .accepted s).updTrip c
            (fun x => { x with state := .none, verdict := .none })).cars ∧
          t.ports = (carAnswered c .accepted s).ports ∧
          t.queue.entries = s.queue.entries.filter (fun e => e != c) ∧ s.HeadFollows t ∧
          t = { s with cars := t.cars, ports := t.ports, queue := t.queue })) ∧
    ((s.trip c).state ≠ .waiting →
      exec (.withdraw c) s = .next (carAnswered c .accepted s))

/-- AT_SPEED makes a STARTING trip RUNNING, charged N or credited Ret from then on, and ends the window of
the car that holds the gate; from any other trip, or a LOST car, it is ignored (R53, R70). -/
def Obligations.AtSpeedCompletes : Prop :=
  ∀ (s : State) (c : CarIx),
    ignores s (.car c) = false →
    (s.Consistent → s.role c ≠ .lost → (s.trip c).state = .starting →
      ∃ t, exec (.atSpeed c) s = .next t ∧
        OnlyDecisions (carAnswered c .accepted s) t ∧
        (t.trip c).state = .running ∧ t.role c = s.role c ∧
        (t.car c).powered = (s.car c).powered ∧
        c ∈ t.gate.stack ∧ t.gate.holder ≠ .car c ∧
        (s.gate.state ≠ .opened → t.gate = s.gateAfterWindow c) ∧
        (t.trip c).charge = (if (s.trip c).kind = .motoring then (s.trip c).n else 0) ∧
        (t.trip c).credit = (if (s.trip c).kind = .motoring then 0 else (s.trip c).ret)) ∧
    (s.Settled →
      s.role c = .lost ∧ s.plan.phase.generator = true ∨ (s.trip c).state ≠ .starting →
      exec (.atSpeed c) s = .next (carAnswered c .accepted s))

/-- START_FAIL ends a STARTING trip and STOPPED a STARTING or RUNNING one: the trip is NONE, the car leaves
the stack and the victim set, its window ends if it holds the gate, a pending exclusion or unavailability
makes it UNAVAILABLE, a recall car parks at its recall landing and elsewhere stays, or in RETURN becomes
HELD; a service car left out of the manual list is deselected; and in RETURN the removal that empties the
stack gives clearance (R71, R72, R75, R76, R62, R108, R114, R116). From any other trip, or a LOST car, they
are ignored. That the slot start time of a car made HELD in RETURN goes with its slot is the model's choice
(log 34). -/
def Obligations.TripEnds : Prop :=
  ∀ (s : State) (c : CarIx) (i : Instr),
    ignores s (.car c) = false →
    (s.Consistent → s.role c ≠ .lost →
      i = .startFail c ∧ (s.trip c).state = .starting ∨
        i = .stopped c ∧ (s.trip c).state.moving = true →
      ∃ t, exec i s = .next t ∧
        OnlyDecisions (carAnswered c .accepted s) t ∧
        (t.trip c).state = .none ∧ c ∉ t.gate.stack ∧ t.gate.holder ≠ .car c ∧
        (s.gate.state ≠ .opened → t.gate = { s.gateAfterWindow c with
          stack := s.gate.stack.filter (fun e => e != c) }) ∧
        (∀ v ∈ t.shed.victims, v.car ≠ c) ∧
        ((s.car c).pendExcl = true ∨ (s.car c).pendUnavail = true →
          t.role c = .unavailable ∧ (t.car c).powered = false ∧ (t.car c).pendExcl = false ∧
          (t.car c).pendUnavail = false ∧ (t.car c).pendDesel = false) ∧
        ((s.car c).pendExcl = false → (s.car c).pendUnavail = false →
          (s.role c = .recall → (s.car c).position = .atRecall →
            t.role c = .parked ∧ (t.car c).powered = false ∨
              t.role c = .service ∧ c ∈ t.plan.serviceOrder) ∧
          (s.role c = .recall → (s.car c).position ≠ .atRecall → s.plan.phase = .returning →
            t.role c = .held ∧ (t.car c).powered = false ∧ listed t c = false ∧
            (t.car c).slotStart = none) ∧
          (s.role c = .recall → (s.car c).position ≠ .atRecall → s.plan.phase ≠ .returning →
            t.role c = .recall ∧ (t.car c).powered = (s.car c).powered ∧
            (t.car c).slotStart = (s.car c).slotStart) ∧
          (s.role c = .service → (s.car c).pendDesel = true →
            s.plan.mode = .manual → c ∉ s.plan.manualList →
            t.role c = .parked ∧ (t.car c).powered = false ∧ (t.car c).pendDesel = false ∧
            c ∉ t.plan.serviceOrder ∧
            t.hasNotice (.car c) CarNotice.park.number = true)) ∧
        (s.plan.phase = .returning → s.plan.clearance = .notClear →
          ((∀ e ∈ s.gate.stack, e = c) → t.plan.clearance = .clear ∧ t.plan.returnTimer = none ∧
            t.hasNotice .supply SupplyNotice.clear.number = true) ∧
          ((∃ e ∈ s.gate.stack, e ≠ c) → t.plan.clearance = .notClear ∧
            t.plan.returnTimer = s.plan.returnTimer))) ∧
    (i = .startFail c ∧ (s.trip c).state ≠ .starting ∨
        i = .stopped c ∧ (s.trip c).state.moving = false ∨
        (i = .startFail c ∨ i = .stopped c) ∧ s.role c = .lost ∧ s.plan.phase.generator = true →
      exec i s = .next (carAnswered c .accepted s))

/-- STATE replaces the four status fields together, in every phase and role, with ACCEPTED, and applies what
follows from them: the return of a LOST car with STILL and with MOVING (R54, R55), the availability rules for
cars idle, in motion and UNAVAILABLE (R61, R57), the notice of motion that the part did not permit (R49), and
the parking of a recall car (R108). Read with R47 and R48. A car whose recall has failed returns STILL as HELD
at its recall landing too, as R109 says (log 37). That an UNAVAILABLE car's slot start time goes with its slot
is the model's choice (log 34). -/
def Obligations.StateRecords : Prop :=
  ∀ (s : State) (c : CarIx) (u : Byte),
    ignores s (.car c) = false →
    let available := availableOf u = true
    let idle := (s.trip c).state.still = true
    let phase := s.plan.phase
    ∃ t, exec (.state c (.opened [u])) s = .next t ∧
      OnlyDecisions ((carAnswered c .accepted s).updCar c (fun r =>
        { r with position := positionOf u, occupied := occupiedOf u, available := availableOf u,
                 motion := motionOf u })) t ∧
      (phase.generator = false → s.role c = .free ∨ s.role c = .lost → t.role c = .free) ∧
      (phase.generator = true → (s.trip c).state = .none → motionOf u = .moving →
        t.hasNotice .panel PanelNotice.unpermittedMotion.number = true ∧
        t.hasNotice .supply SupplyNotice.unpermittedMotion.number = true) ∧
      (s.Consistent → s.RecordsSound → s.Settled → phase.generator = true →
        (s.role c = .lost → motionOf u = .still →
          (t.trip c).state = .none ∧ (t.car c).preLoss = none ∧ c ∉ t.gate.stack ∧
          t.gate.holder ≠ .car c ∧ (∀ v ∈ t.shed.victims, v.car ≠ c) ∧
          (t.car c).pendExcl = false ∧ (t.car c).pendUnavail = false ∧ (t.car c).pendDesel = false ∧
          ((s.car c).included = false ∨ ¬ available →
            t.role c = .unavailable ∧ (t.car c).powered = false ∧ (t.car c).recallTimer = none) ∧
          ((s.car c).included = true → available →
            (s.car c).pendExcl = false → (s.car c).pendUnavail = false →
            (positionOf u = .atRecall → (s.car c).recallFailed = false →
              t.role c = .parked ∧ (t.car c).powered = false ∨
              t.role c = .service ∧ c ∈ t.plan.serviceOrder) ∧
            (positionOf u ≠ .atRecall ∨ (s.car c).recallFailed = true →
              s.HandedBack t c ∧ (t.car c).recallFailed = (s.car c).recallFailed))) ∧
        (s.role c = .lost → motionOf u = .moving →
          (t.car c).preLoss = none ∧ (t.trip c).state = (s.trip c).state ∧
          ((s.trip c).state.moving = true →
            some (t.role c) = (s.car c).preLoss ∧ (t.car c).powered = (s.car c).powered ∧
            c ∈ t.gate.stack ∧ (t.car c).pendExcl = (s.car c).pendExcl ∧
            (t.car c).pendUnavail = !availableOf u) ∧
          (idle → ¬ available ∨ (s.car c).pendExcl = true →
            (s.car c).included = false ∨ ¬ available →
            t.role c = .unavailable ∧ (t.car c).powered = false) ∧
          (idle → available → (s.car c).pendExcl = false →
            ((s.car c).preLoss = some .held → s.HandedBack t c) ∧
            ((s.car c).preLoss = some .service → (s.car c).pendDesel = false →
              t.role c = .service ∧ (t.car c).powered = (s.car c).powered) ∧
            ((s.car c).preLoss = some .recall → phase = .recall ∨ phase = .service →
              positionOf u ≠ .atRecall →
              t.role c = .recall ∧ (t.car c).powered = (s.car c).powered ∧
              (t.car c).slotStart = (s.car c).slotStart))) ∧
        (s.role c = .unavailable →
          (available → (s.car c).included = true → (s.car c).recallFailed = false →
            s.HandedBack t c) ∧
          (¬ available ∨ (s.car c).included = false ∨ (s.car c).recallFailed = true →
            t.role c = .unavailable)) ∧
        (s.role c = .held ∨ s.role c = .parked → ¬ available →
          t.role c = .unavailable ∧ (t.car c).powered = false ∧ listed t c = false) ∧
        (s.role c = .recall ∨ s.role c = .service → idle → ¬ available →
          t.role c = .unavailable ∧ (t.car c).powered = false ∧ (t.trip c).state = .none ∧
          c ∉ t.queue.entries ∧ c ∉ t.plan.serviceOrder ∧ (t.car c).slotStart = none ∧
          (t.car c).recallTimer = none ∧
          ((s.trip c).state = .waiting → (t.trip c).verdict = .dropped .role)) ∧
        (s.role c = .recall ∨ s.role c = .service → (s.trip c).state.moving = true →
          t.role c = s.role c ∧ (t.trip c).state = (s.trip c).state ∧
          (t.car c).pendUnavail = !availableOf u) ∧
        (s.role c = .recall → (s.trip c).state = .none → available →
          phase = .recall ∨ phase = .service →
          (positionOf u = .atRecall →
            (t.role c = .parked ∧ (t.car c).powered = false ∨
              t.role c = .service ∧ c ∈ t.plan.serviceOrder) ∧
            (t.car c).recallTimer = none ∧ (t.car c).slotStart = none) ∧
          (positionOf u ≠ .atRecall →
            t.role c = .recall ∧ (t.car c).powered = (s.car c).powered ∧
            (t.car c).slotStart = (s.car c).slotStart)))

/-- PROFILE: at its opcode unit it waits for its fields, or is refused NOT_PERMITTED by the role (R44). -/
def Obligations.ProfileOpens : Prop :=
  ∀ (s : State) (c : CarIx),
    ignores s (.car c) = false →
    (s.role c = .recall ∨ s.role c = .service ∨ s.role c = .lost →
      exec (.profile c) s = .next (carAnswered c .notPermitted s)) ∧
    (s.role c ≠ .recall → s.role c ≠ .service → s.role c ≠ .lost →
      exec (.profile c) s = .next (s.updPort (.car c) (.opened (some ⟨.profile, []⟩) none)))

/-- PROFILE_FIELD_LATCH: each field is clamped and latched at its last unit, the eighth unit completes the
request with ACCEPTED, and a role that has come to refuse it ends it NOT_PERMITTED with nothing latched
(R45). -/
def Obligations.ProfileFieldLatches : Prop :=
  ∀ (s : State) (c : CarIx) (args units : List Byte),
    ignores s (.car c) = false →
    (s.port (.car c)).request = some ⟨.profile, args⟩ →
    args.length = 0 ∧ units.length = 2 ∨
      2 ≤ args.length ∧ args.length ≤ 7 ∧ units.length = 1 →
    let u := (argAt units 0).toNat
    let latched : Profile → Profile := fun p =>
      match args.length with
      | 0 => { p with pr := max 5 (min 400 (u * 256 + (argAt units 1).toNat)) }
      | 2 => { p with b := max 30 (min 60 u) }
      | 3 => { p with f := max 8 (min 32 u) }
      | 4 => { p with a := min 40 u }
      | 5 => { p with g := min 16 u }
      | 6 => { p with tland := timeCode (argAt units 0) }
      | _ => { p with trun := timeCode (argAt units 0) }
    let latch : State → State := fun t => t.updCar c (fun r => { r with profile := latched r.profile })
    (s.role c = .recall ∨ s.role c = .service ∨ s.role c = .lost →
      exec (.profileFieldLatch c units) s = .next ((carLinkUp c s).updPort (.car c)
        (fun i => { i.taken none with outcome := .notPermitted }))) ∧
    (s.role c ≠ .recall → s.role c ≠ .service → s.role c ≠ .lost →
      (args.length < 7 → exec (.profileFieldLatch c units) s = .next
        ((latch s).updPort (.car c) (.taken (some ⟨.profile, args ++ units⟩)))) ∧
      (args.length = 7 → exec (.profileFieldLatch c units) s = .next
        ((latch (carLinkUp c s)).updPort (.car c)
          (fun i => { i.taken none with outcome := .accepted }))))

/-! ## Reads and units of any port -/

/-- The seven reads each complete at their opcode unit, in every phase and state, each with the units of its
own reply (R142, R143). READ-NOTICES answers the port's notice set as a 16-bit number, most significant unit
first, in which bit n is the kind of number n (R145). -/
def Obligations.ReadsAnswer : Prop :=
  ∀ s : State,
    (∀ c, s.AnswersRead (.car c) .readCar (fun t => carReply t c) (.readCar c)) ∧
    s.AnswersRead .supply .readSupply supplyReply .readSupply ∧
    s.AnswersRead .panel .siteRead siteReply .siteRead ∧
    s.AnswersRead .panel .readAccount accountReply .readAccount ∧
    s.AnswersRead .panel .readPlan planReply .readPlan ∧
    (∀ p, s.AnswersRead p .readNotices (fun t =>
      [(t.port p).notices.extractLsb' 8 8, (t.port p).notices.extractLsb' 0 8]) (.readNotices p)) ∧
    (∀ p, s.AnswersRead p .readIdent (fun t => identReply t p) (.readIdent p))

/-- R147, R158, R159: the six units of READ-IDENT, and the 35 units of SITE-READ, which under the
single-car defaults are their image form. -/
def Obligations.IdentAndSiteUnits : Prop :=
  (∀ (s : State) (p : Port),
    identReply s p = [0x4C, 0x01,
      (match s.store.carsel with
        | 0 => 12
        | 1 => 8
        | 2 => 6
        | 3 => 4),
      (if s.store.site = .valid then 1 else 0),
      (if s.store.state = .idle then 0 else 1),
      (match (s.port p).outcome with
        | .none => 0
        | .accepted => 1
        | .abandoned => 2
        | .unknown => 3
        | .notRequired => 4
        | .busy => 5
        | .wrongPhase => 6
        | .notPermitted => 7
        | .noCapacity => 8
        | .step => 9
        | .range => 10)]) ∧
  (∀ s : State, (siteReply s).length = 35 ∧ siteReply s = s.store.active.toList) ∧
  (∀ s : State, s.StoreSound → s.store.site = .default →
    siteReply s = [1, (identReply s .panel).getD 2 0] ++ List.replicate 12 0x30 ++
      List.replicate 9 0 ++ [1, 1, 0, 0x29, 0x24, 0x27, 0x41, 0x60, 0x22, 0x61, 0x2E, 1] ∧
    tSettle s.store.active = 100 ∧ tRec s.store.active = 50 ∧ tStart s.store.active = 80 ∧
    tPstart s.store.active = 200 ∧ tAge s.store.active = 600 ∧ tLink s.store.active = 30 ∧
    tRet s.store.active = 1200 ∧ tFair s.store.active = 150)

/-- UNKNOWN_OPCODE: the request is complete at once with UNKNOWN and sets PROTOCOL; no block is reached
(R137). -/
def Obligations.UnknownOpcodeCompletes : Prop :=
  ∀ (s : State) (p : Port) (code : Byte),
    ignores s p = false → Request.ofCode p code = none →
    p ≠ .supply ∨ s.supplyLink.link = .up →
    exec (.unknownOpcode p code) s = .next (((s.heard p).updPort p (.answered .unknown)).setNotice p
      (match p with
        | .car _ => CarNotice.protocol.number
        | .supply => SupplyNotice.protocol.number
        | .panel => PanelNotice.protocol.number))

/-- SURPLUS_UNIT carries the fill value out behind a 1 and changes nothing more. UNIT_CUT discards its bits:
as many bits have gone out, of the next reply unit where its kind bit asked for one, which is not served by
them, and DOUT is high again. A port that takes no unit follows its SELn line alone, and the rise of SELn
ends the wait of one that became configured (R41, R43, R135, R136, R138). -/
def Obligations.UnitsOfNoRequest : Prop :=
  ∀ (s : State) (p : Port) (data : Byte) (bits : List Bool),
    (ignores s p = false → (s.port p).request = none → (s.port p).reply = none →
      exec (.surplusUnit p data) s = .next (s.updPort p (fun i =>
        { i with selLow := true, shiftIn := [], sending := 0xFF,
                 shiftOut := true :: List.replicate 8 true }))) ∧
    (ignores s p = false → bits.length ≤ 8 →
      let next := match bits.head?, (s.port p).request, (s.port p).reply with
        | some true, none, some rep => rep.units.getD rep.next 0xFF
        | _, _, _ => 0xFF
      ∃ t, exec (.unitCut p bits) s = .next t ∧ (t.port p).dout = true ∧
        t = s.updPort p (fun i =>
          { i with selLow := false, awaitSelect := false, shiftIn := [],
                   sending := if bits = [] then i.sending else next,
                   shiftOut := if bits = [] then i.shiftOut
                     else (unitBits true next).take bits.length })) ∧
    (ignores s p = true →
      exec (.surplusUnit p data) s = .next (s.updPort p (fun i =>
        { i with selLow := true, shiftIn := [] })) ∧
      exec (.unitCut p bits) s = .next (s.updPort p (fun i =>
        { i with selLow := false, awaitSelect := false, shiftIn := [] })))

/-- REPLY_UNIT_SERVED: the next unit of the reply goes out bit by bit behind a 1, most significant first, the
reply moves on and wraps after its last unit, and unit 1 of a READ-NOTICES reply, served whole for the first
time, takes the snapshot's kinds out of the set (R136, R143, R145). -/
def Obligations.ReplyUnitGoesOut : Prop :=
  ∀ (s : State) (p : Port) (data : Byte) (rep : Reply),
    ignores s p = false → (s.port p).request = none → (s.port p).reply = some rep →
    rep.next < rep.units.length →
    let out := rep.units.getD rep.next 0xFF
    exec (.replyUnitServed p data) s = .next (s.updPort p (fun i =>
      { i with
        selLow := true
        shiftIn := []
        sending := out
        shiftOut := true :: (List.range 8).map (fun k => out.getLsbD (7 - k))
        notices := if rep.next = 1 then i.notices &&& ~~~(rep.snapshot.getD 0) else i.notices
        reply := some { units := rep.units, next := (rep.next + 1) % rep.units.length,
                        snapshot := if rep.next = 1 then none else rep.snapshot } }))

/-! ## Commands of the supply port -/

/-- SUPPLY moves the phase by the table of R98 to R101; the end of the initial recall may follow within the
event. A phase change sets PHASE on every port; a code that names no supply state is refused RANGE (R97). In
OUTAGE the settle timer starts, runs on or stops (R98, R99); on leaving START or MAINS each configured car has
its generator-phase role (R102), and RETURN from START is CLEAR at once (R98). From a link that was UP: entry
to RETURN makes the idle recall cars HELD and waits for the stack to empty (R115, R116), and its withdrawal
takes the HELD cars back into the plan (R101, R117). -/
def Obligations.SupplyMovesPhase : Prop :=
  ∀ (s : State) (u : Byte),
    ignores s .supply = false →
    ∃ t, exec (.supply (.opened [u])) s = .next t ∧
      (t.port .supply).request = none ∧ (t.port .supply).reply = none ∧
      t.supplyLink = s.supplyHeard.supplyLink ∧
      (supplyStateOf u = none →
        OnlyDecisions (supplyAnswered .range s) t ∧
        (s.supplyLink.link = .up → s.Settled → t = supplyAnswered .range s)) ∧
      (∀ r, supplyStateOf u = some r →
        (t.port .supply).outcome = .accepted ∧
        (t.plan.phase = nextPhase s.plan.phase s.plan.recallDone r ∨
          nextPhase s.plan.phase s.plan.recallDone r = .recall ∧ t.plan.phase = .service) ∧
        (s.store.state ≠ .awaitingActivation →
          OnlyDecisions (supplyAnswered .accepted s) t) ∧
        (s.Sound → t.plan.phase = .outage → t.plan.settleTimer =
          (if r = .genReady then
            (match s.plan.settleTimer with
              | none => s.startTimer (tSettle s.store.active)
              | some running => some running)
          else none)) ∧
        (s.Sound → s.plan.phase.generator = false → t.plan.phase.generator = true →
          (∀ c, s.configured c = true →
            let given : Role :=
              if (s.car c).included && (s.car c).available then .held else .unavailable
            (t.car c).powered = false ∧ (t.trip c).state = .none ∧
            (r ≠ .retransfer → (t.car c).recallFailed = false) ∧
            ((s.car c).link = .up → t.role c = given ∧ (t.car c).preLoss = none) ∧
            ((s.car c).link ≠ .up → t.role c = .lost ∧ (t.car c).preLoss = some given)) ∧
          (r = .retransfer → t.plan.clearance = .clear ∧ t.plan.returnTimer = none ∧
            t.gate.state = .opened ∧ t.plan.recallList = [] ∧
            t.hasNotice .supply SupplyNotice.clear.number = true)) ∧
        (s.Sound → s.supplyLink.link = .up → r = .retransfer →
          s.plan.phase = .recall ∨ s.plan.phase = .service →
          t.queue.entries = [] ∧ t.plan.recallList = s.plan.recallList ∧
          t.plan.recallDone = s.plan.recallDone ∧ t.gate.stack = s.gate.stack ∧
          (∀ c,
            let still := (s.trip c).state.still = true
            (t.trip c).state = (if (s.trip c).state = .waiting then .none else (s.trip c).state) ∧
            ((s.trip c).state = .waiting → (t.trip c).verdict = .dropped .phase) ∧
            (s.role c = .recall → still → t.role c = .held ∧ (t.car c).powered = false ∧
              (t.car c).recallTimer = none) ∧
            (s.role c = .lost → (s.car c).preLoss = some .recall → still →
              t.role c = .lost ∧ (t.car c).preLoss = some .held ∧ (t.car c).powered = false ∧
              (t.car c).recallTimer = none) ∧
            (s.role c ≠ .recall ∧ s.role c ≠ .lost ∨ ¬ still →
              s.role c ≠ .service ∨ s.account.overcommit = .none →
              t.role c = s.role c ∧ (t.car c).preLoss = (s.car c).preLoss ∧
              (t.car c).powered = (s.car c).powered ∧
              (t.car c).recallTimer = (s.car c).recallTimer)) ∧
          (s.gate.stack = [] → t.plan.clearance = .clear ∧ t.plan.returnTimer = none ∧
            t.hasNotice .supply SupplyNotice.clear.number = true) ∧
          (s.gate.stack ≠ [] → t.plan.clearance = .notClear ∧
            t.plan.returnTimer = s.startTimer (tRet s.store.active))) ∧
        (s.Sound → s.supplyLink.link = .up → r = .genReady → s.plan.phase = .returning →
          t.plan.clearance = .notClear ∧ t.plan.returnTimer = none ∧
          ∀ c, s.role c = .held →
            ((s.car c).recallFailed = true → t.role c = .held ∧ listed t c = false) ∧
            ((s.car c).recallFailed = false →
              (listed s c = false → t.Joined c) ∧
              (t.role c = .held → listed t c = true)))) ∧
      (t.plan.phase ≠ s.plan.phase →
        t.hasNotice .supply SupplyNotice.phase.number = true ∧
        t.hasNotice .panel PanelNotice.phase.number = true ∧
        ∀ c, s.configured c = true → t.configured c = true →
          t.hasNotice (.car c) CarNotice.phase.number = true)

/-- SUPPLY: on the generator-loss path, and on entry to MAINS from a generator phase, every trip is NONE and
every car unpowered, the gate is CLOSED with its stack empty, queue, recall list and service order are empty,
the overcommit is over and the controller IDLE (R65, R94, R103, R104, R133). From a supply link that was UP,
so that no call goes before, and with no store write awaiting the MAINS phase, each car has the role its
rule gives: on entry to MAINS FREE, but for LOST and ABSENT (R104); into OUTAGE by R103's table, a LOST car
with its pre-loss role by R56, and a car made LOST there (R52) with the table's role as its pre-loss role,
which is the model's choice (log 33). -/
def Obligations.SupplyEndsService : Prop :=
  ∀ (s : State) (u : Byte) (r : SupplyState),
    ignores s .supply = false → supplyStateOf u = some r →
    s.plan.phase.generator = true →
    r = .mains ∨ (r = .genLost ∨ r = .genStarting) ∧ s.plan.phase ≠ .outage →
    ∃ t, exec (.supply (.opened [u])) s = .next t ∧
      t.plan.phase = (if r = .mains then .mains else .outage) ∧
      (∀ c, (t.trip c).state = .none ∧ (t.car c).powered = false) ∧
      t.gate = .atReset ∧ t.queue.entries = [] ∧ t.queue.headTimer = none ∧
      t.queue.headAged = false ∧ t.plan.recallList = [] ∧ t.plan.serviceOrder = [] ∧
      t.plan.recallDone = false ∧ t.plan.settleTimer = none ∧ t.plan.returnTimer = none ∧
      t.plan.clearance = .notClear ∧ t.account.overcommit = .none ∧ t.shed = .atReset ∧
      t.account.limits = s.account.limits ∧ t.plan.mode = s.plan.mode ∧
      t.plan.manualList = s.plan.manualList ∧
      (s.supplyLink.link = .up → s.store.state ≠ .awaitingActivation → ∀ c,
        (r = .mains → (t.car c).preLoss = none ∧ t.role c =
          (if s.role c = .lost ∨ s.role c = .absent then s.role c else .free)) ∧
        (r ≠ .mains →
          let after : Role :=
            match s.role c with
            | .recall | .service =>
              if (s.car c).pendExcl || (s.car c).pendUnavail then .unavailable else .held
            | role => role
          (t.car c).recallFailed = false ∧
          (s.role c = .absent ∨ s.role c ≠ .lost ∧ (s.car c).link = .up → t.role c = after) ∧
          (s.role c = .lost → t.role c = .lost ∧ (t.car c).preLoss =
            (if (s.car c).preLoss = some .recall ∨ (s.car c).preLoss = some .service then some .held
              else (s.car c).preLoss)) ∧
          (s.role c ≠ .absent → s.role c ≠ .lost → (s.car c).link ≠ .up →
            t.role c = .lost ∧ (t.car c).preLoss = some after)))

/-- OFFER waits for its fields; OFFER_FIELD_LATCH: each field is clamped and latched at its second unit, the
sixth unit completes the request with ACCEPTED, and no input of another master moves (R18, R19). A lowering
of O or U re-checks the queue, and every other latch drops no entry by the two tests (R92); a rise of O in a
consistent, settled state makes a selection run (R112). That a U of 0
counts as no limit in what is a lowering, and that the re-check goes before the pass of the Shed Controller,
are the model's choices (log 20, 16). -/
def Obligations.OfferLatches : Prop :=
  (∀ s : State, ignores s .supply = false →
    exec .offer s = .next (s.updPort .supply (.opened (some ⟨.offer, []⟩) none))) ∧
  (∀ (s : State) (args : List Byte) (hi lo : Byte),
    ignores s .supply = false →
    (s.port .supply).request = some ⟨.offer, args⟩ →
    args.length = 0 ∨ args.length = 2 ∨ args.length = 4 →
    let v := hi.toNat * 256 + lo.toNat
    let a : Account :=
      match args.length with
      | 0 => { s.account with offer := min 4095 v }
      | 2 => { s.account with stepLimit := min 4095 v }
      | _ => { s.account with absorb := min 1023 v }
    ∃ t, exec (.offerFieldLatch [hi, lo]) s = .next t ∧
      (args.length < 4 → OnlyDecisions ({ s with account := a }.updPort .supply
        (.taken (some ⟨.offer, args ++ [hi, lo]⟩))) t) ∧
      (args.length = 4 → OnlyDecisions ({ s.supplyHeard with account := a }.updPort .supply
        (fun i => { i.taken none with outcome := .accepted })) t) ∧
      (s.Consistent → s.Settled → args.length = 0 → s.account.offer < a.offer → s.SelectionMade t) ∧
      (s.Consistent → s.Settled →
        let lowered := args.length = 0 ∧ a.offer < s.account.offer ∨
          args.length = 2 ∧ a.stepLimit ≠ 0 ∧
            (s.account.stepLimit = 0 ∨ a.stepLimit < s.account.stepLimit)
        t.queue.entries.Sublist s.queue.entries ∧
        (lowered → s.Rechecked { s with account := a } t) ∧
        (¬ lowered → ∀ c, (s.trip c).state = .waiting → s.KeepsWaiting { s with account := a } t c)))

/-- RECOVERED and RECOVERY_EXPIRY open a gate in RECOVERY, and the grant rule that follows decides: a pending
claim with no fairness window is granted; else, when a car grant is allowed, the first of the queue's
candidates that fits now is granted, and none when none fits; else nothing is (R66, R67, R68, R77, R79, R90).
The head's age follows the entry that was granted (R89).
RECOVERED in any other gate state is ignored (R77). -/
def Obligations.GateRecovers : Prop :=
  ∀ s : State, s.Settled →
    let opened := fun t : State => { t with gate :=
      { t.gate with state := .opened, holder := .none, recoveryTimer := none } }
    let follows := fun (base t : State) =>
      let allowed := (base.plan.phase = .recall ∨ base.plan.phase = .service) ∧
        base.account.overcommit = .none ∧ base.supplyLink.link = .up
      let offered := if bypass base.store.active = true ∧ base.queue.headAged = false
        then base.queue.entries else base.queue.entries.take 1
      let claims := base.gate.pendingClaim.isSome = true ∧ base.gate.fairness = none
      (∀ e, claims → base.gate.pendingClaim = some e →
        t = { base with gate := { base.gate with
          pendingClaim := none, heldClaim := some e, state := .panelStart, holder := .panel,
          panelTimer := base.startTimer (tPstart base.store.active) } }.noticePanel .panelGrant) ∧
      (¬ claims → ¬ allowed → t = base) ∧
      (¬ claims → (∀ c ∈ offered, base.fitsNow c = false) → t = base) ∧
      (¬ claims → allowed → ∀ before c after, offered = before ++ c :: after →
        (∀ d ∈ before, base.fitsNow d = false) → base.fitsNow c = true →
        t.gate = { base.gate with
          state := .carStart, holder := .car c, startTimer := base.startTimer (tStart base.store.active),
          fairness := none, stack := base.gate.stack ++ [c] } ∧
        t.car c = { base.car c with powered := true, trip := { base.trip c with
          state := .starting, verdict := .granted, startOverdue := false, shedOrdered := false } } ∧
        (∀ d, d ≠ c → t.car d = base.car d) ∧
        t.ports = (base.noticeCar c .permit).ports ∧
        t.queue.entries = base.queue.entries.filter (fun d => d != c) ∧ base.HeadFollows t ∧
        t = { base with cars := t.cars, ports := t.ports, queue := t.queue, gate := t.gate })
    (s.gate.state = .recovery → s.gate.recoveryTimer.isSome = true →
      ∃ t, exec .recoveryExpiry s = .next t ∧ follows (opened s) t) ∧
    (ignores s .supply = false → s.supplyLink.link = .up → s.gate.state = .recovery →
      ∃ t, exec .recovered s = .next t ∧ follows (opened (supplyAnswered .accepted s)) t) ∧
    (ignores s .supply = false → s.supplyLink.link = .up → s.gate.state ≠ .recovery →
      exec .recovered s = .next (supplyAnswered .accepted s))

/-! ## Commands of the panel port -/

/-- RESERVE writes, clamps or empties one entry, and emptying the entry a pending claim names cancels the
claim; an entry above 7 is refused RANGE and changes nothing (R21, R79). A rise of the reserve total
re-checks the queue, and no other write drops an entry by the two tests (R92); a fall of it in a consistent
state makes a selection run (R112); and while an overcommit is held every write that changes the entry makes a
shed pass (R122 to R128). That the re-check goes before the pass of the Shed Controller is the model's choice (log 16). -/
def Obligations.ReserveWrites : Prop :=
  ∀ (s : State) (e hi lo : Byte),
    ignores s .panel = false →
    let v := hi.toNat * 256 + lo.toNat
    (∀ h : e.toNat < 8,
      let a : Account := { s.account with
        reserves := s.account.reserves.set e.toNat (if v = 0 then none else some (min 4095 v)) }
      let raised := s.rs < { s with account := a }.rs
      ∃ t, exec (.reserve (.opened [e, hi, lo])) s = .next t ∧
      OnlyDecisions { panelAnswered .accepted s with account := a } t ∧
      (s.Consistent → { s with account := a }.rs < s.rs → s.SelectionMade t) ∧
      (s.Sound → a ≠ s.account → t.account.overcommit = .holding →
        { s with account := a }.ShedMade t) ∧
      (s.Consistent → s.Settled →
        t.queue.entries.Sublist s.queue.entries ∧
        (raised → s.Rechecked { s with account := a } t) ∧
        (¬ raised → ∀ c, (s.trip c).state = .waiting →
          s.KeepsWaiting { s with account := a } t c)) ∧
      (v = 0 → s.gate.pendingClaim = some ⟨e.toNat, h⟩ → t.gate.pendingClaim = none) ∧
      (s.gate.state = .panelStart → s.gate.pendingClaim = none → t.gate = s.gate)) ∧
    (8 ≤ e.toNat → s.Settled →
      exec (.reserve (.opened [e, hi, lo])) s = .next (panelAnswered .range s))

/-- GATE_CLAIM: the rows of R78's table, the first that applies; an accepted claim waits while the gate is
not OPEN or the fairness window runs, and else is granted within the same request (R79). -/
def Obligations.GateClaimAnswered : Prop :=
  ∀ (s : State) (u : Byte),
    ignores s .panel = false → s.Settled →
    let answers := fun t : State => exec (.gateClaim (.opened [u])) s = .next t
    (s.plan.phase = .start ∨ s.plan.phase = .mains → answers (panelAnswered .notRequired s)) ∧
    (s.plan.phase = .outage → answers (panelAnswered .wrongPhase s)) ∧
    (s.plan.phase = .recall ∨ s.plan.phase = .service ∨ s.plan.phase = .returning →
      (8 ≤ u.toNat → answers (panelAnswered .range s)) ∧
      (∀ h : u.toNat < 8,
        let e : EntryIx := ⟨u.toNat, h⟩
        (s.account.reserves[e.val] = none ∨ s.gate.pendingClaim.isSome = true ∨
            s.gate.heldClaim.isSome = true →
          answers (panelAnswered .notPermitted s)) ∧
        (s.account.reserves[e.val] ≠ none → s.gate.pendingClaim = none → s.gate.heldClaim = none →
          (s.gate.state ≠ .opened → answers { panelAnswered .accepted s with
            gate := { s.gate with pendingClaim := some e } }) ∧
          (s.gate.state = .opened → s.gate.fairness = none →
            answers ({ panelAnswered .accepted s with gate := { s.gate with
              heldClaim := some e, state := .panelStart, holder := .panel,
              panelTimer := s.startTimer (tPstart s.store.active) } }.noticePanel .panelGrant)) ∧
          (s.gate.state = .opened → s.gate.fairness.isSome = true →
            ∃ t, exec (.gateClaim (.opened [u])) s = .next t ∧
              OnlyDecisions (panelAnswered .accepted s) t ∧ t.gate.pendingClaim = some e))))

/-- GATE_RELEASE ends a held claim with a recovery, and a fairness window when an entry waits; withdraws a
pending one; and is else refused NOT_PERMITTED (R80, R82). -/
def Obligations.GateReleaseCompletes : Prop :=
  ∀ s : State,
    ignores s .panel = false → s.Settled →
    (s.gate.heldClaim.isSome = true →
      exec .gateRelease s = .next { panelAnswered .accepted s with gate := { s.recovering with
        heldClaim := none,
        fairness := if s.queue.entries = [] then s.gate.fairness
          else s.startTimer (tFair s.store.active) } }) ∧
    (s.gate.heldClaim = none → s.gate.pendingClaim.isSome = true →
      exec .gateRelease s = .next { panelAnswered .accepted s with
        gate := { s.gate with pendingClaim := none } }) ∧
    (s.gate.heldClaim = none → s.gate.pendingClaim = none →
      exec .gateRelease s = .next (panelAnswered .notPermitted s))

/-- SELECT sets the mode and the manual list in every phase, and a service car that a new list leaves out is
deselected, at once when it is idle and at its trip's end when it moves (R113, R114). In a consistent
state a selection run follows (R112). -/
def Obligations.SelectSetsPlan : Prop :=
  ∀ (s : State) (n : Byte) (ixs : List Byte),
    ignores s .panel = false → ixs.length = min 12 n.toNat →
    let l := ((ixs.filterMap carIxOf).filter s.configured).eraseDups
    let left := s.plan.phase = .service ∨ s.plan.phase = .returning
    ∃ t, exec (.select (.opened (n :: ixs))) s = .next t ∧ (s.Consistent → s.SelectionMade t) ∧
      (n.toNat = 0 → OnlyDecisions ({ panelAnswered .accepted s with plan := { s.plan with
          mode := .automatic, manualList := [] } }) t ∧
        ∀ c, (t.car c).pendDesel = false) ∧
      (n.toNat ≠ 0 → OnlyDecisions ({ panelAnswered .accepted s with plan := { s.plan with
          mode := .manual, manualList := l } }) t ∧
        (∀ c ∈ l, (t.car c).pendDesel = false) ∧
        (s.Consistent → left → ∀ c, c ∉ l → s.role c = .service →
          ((s.trip c).state.moving = false →
            t.role c = .parked ∧ (t.car c).powered = false ∧ (t.trip c).state = .none ∧
            c ∉ t.plan.serviceOrder ∧
            (s.configured c = true → t.hasNotice (.car c) CarNotice.park.number = true)) ∧
          ((s.trip c).state.moving = true →
            t.role c = .service ∧ (t.car c).pendDesel = true ∧
            (t.trip c).state = (s.trip c).state)))

/-- INCLUDE excludes with the code 0x5A and includes with any other; an index that names no configured car is
refused (R59, R60). An exclusion takes out at once a HELD or PARKED car, and an idle one in role RECALL or
SERVICE with its entry, its slot and its place; it waits for the end of a trip in motion, and for the return
of a car LOST in a generator phase; on any other car it is the flag alone, and on one already excluded
nothing. An inclusion makes an UNAVAILABLE car whose link is UP and which is available HELD, and hands it
back, as it does a HELD car whose recall had failed (R57); any other car it leaves as it was but for the
flags. That an excluded car's slot start time goes with its slot is the model's choice (log 34). -/
def Obligations.IncludeCompletes : Prop :=
  ∀ (s : State) (ix code : Byte),
    ignores s .panel = false →
    let answers := fun t : State => exec (.includeCar (.opened [ix, code])) s = .next t
    (12 ≤ ix.toNat → s.Settled → answers (panelAnswered .range s)) ∧
    (∀ h : ix.toNat < 12,
      let c : CarIx := ⟨ix.toNat, h⟩
      let r := s.car c
      let still := r.trip.state.still = true
      let onPlan := r.role = .recall ∨ r.role = .service
      let lostOnSupply := r.role = .lost ∧ s.plan.phase.generator = true
      (s.configured c = false → s.Settled → answers (panelAnswered .notPermitted s)) ∧
      (s.configured c = true → ∃ t, answers t ∧
        OnlyDecisions ((panelAnswered .accepted s).updCar c
          (fun r => { r with included := decide (code ≠ 0x5A) })) t ∧
        (code = 0x5A → r.included = true →
          t.hasNotice (.car c) CarNotice.excluded.number = true ∧
          (s.Consistent → r.role = .held ∨ r.role = .parked ∨ onPlan ∧ still →
            t.role c = .unavailable ∧ (t.car c).powered = false ∧ (t.trip c).state = .none ∧
            listed t c = false ∧ c ∉ t.queue.entries ∧ c ∉ t.plan.serviceOrder ∧
            (t.car c).slotStart = none ∧ (t.car c).recallTimer = none ∧
            (t.car c).pendExcl = false ∧ (t.car c).pendUnavail = false ∧
            (t.car c).pendDesel = false ∧
            (r.trip.state = .waiting → (t.trip c).verdict = .dropped .role ∧
              t.hasNotice (.car c) CarNotice.dropped.number = true)) ∧
          (s.Settled →
            let flagged := ((panelAnswered .accepted s).updCar c
              (fun r => { r with included := false })).noticeCar c .excluded
            (onPlan ∧ ¬ still ∨ lostOnSupply →
              t = flagged.updCar c (fun r => { r with pendExcl := true })) ∧
            (r.role = .free ∨ r.role = .unavailable ∨ r.role = .lost ∧ ¬ lostOnSupply →
              t = flagged))) ∧
        (code = 0x5A → r.included = false → s.Settled → t = panelAnswered .accepted s) ∧
        (code ≠ 0x5A →
          let comesBack := r.role = .unavailable ∧ r.link = .up ∧ r.available = true ∨
            r.role = .held ∧ r.recallFailed = true
          (t.car c).pendExcl = false ∧ (t.car c).recallFailed = false ∧
          (comesBack → s.Consistent → s.RecordsSound → s.Settled →
            (s.updCar c (fun r => { r with recallFailed := false })).HandedBack t c) ∧
          (¬ comesBack → s.Settled → t = (panelAnswered .accepted s).updCar c (fun r =>
            { r with included := true, recallFailed := false, pendExcl := false })))))

/-- RELEASE_CAR ends the frozen trip of a LOST car and makes it UNAVAILABLE, or FREE in START and MAINS; any
other index is refused (R58). -/
def Obligations.ReleaseCarCompletes : Prop :=
  ∀ (s : State) (ix : Byte),
    ignores s .panel = false →
    (12 ≤ ix.toNat → s.Settled →
      exec (.releaseCar (.opened [ix])) s = .next (panelAnswered .range s)) ∧
    (∀ h : ix.toNat < 12,
      let c : CarIx := ⟨ix.toNat, h⟩
      (s.configured c = false ∨ s.role c ≠ .lost → s.Settled →
        exec (.releaseCar (.opened [ix])) s = .next (panelAnswered .notPermitted s)) ∧
      (s.configured c = true → s.role c = .lost →
        ∃ t, exec (.releaseCar (.opened [ix])) s = .next t ∧
          OnlyDecisions (panelAnswered .accepted s) t ∧ (t.car c).preLoss = none ∧
          (s.plan.phase.generator = false → t.role c = .free) ∧
          (s.Consistent → s.plan.phase.generator = true →
            t.role c = .unavailable ∧ (t.trip c).state = .none ∧ (t.car c).powered = false ∧
            c ∉ t.gate.stack ∧ c ∉ t.plan.serviceOrder ∧ t.gate.holder ≠ .car c ∧
            (∀ v ∈ t.shed.victims, v.car ≠ c) ∧
            (t.car c).pendExcl = false ∧ (t.car c).pendUnavail = false ∧
            (t.car c).pendDesel = false)))

/-- SITE_WRITE is answered at its 35th unit by the first row of R155's table that applies, its conditions read
off the units as R153 lays them out, and an accepted image starts programming (R155, R156). -/
def Obligations.SiteWriteAnswered : Prop :=
  ∀ (s : State) (units : List Byte),
    ignores s .panel = false → units.length = 35 →
    let answers := fun t : State => exec (.siteWrite (.opened units)) s = .next t
    let unit := fun k : Nat => (units.getD k 0).toNat
    let rating := fun f : Nat => unit (15 + 2 * f) * 256 + unit (16 + 2 * f)
    let strapped : Nat :=
      match s.store.carsel with
      | 0 => 12
      | 1 => 8
      | 2 => 6
      | 3 => 4
    let rejected := unit 0 ≠ 1 ∨ unit 1 = 0 ∨ strapped < unit 1 ∨
      (∃ c < unit 1, unit (2 + c) / 16 % 4 = 0 ∨ rating (unit (2 + c) % 4) = 0) ∨
      (∃ f < 4, 4095 < rating f) ∨ 5 < unit 14 ∨ unit 23 = 0 ∨ 4 < unit 23 ∨
      unit 1 < unit 24 ∨ 7 < unit 34
    (imageOf units).toList = units ∧
    (s.plan.phase ≠ .start → s.plan.phase ≠ .mains → answers (panelAnswered .wrongPhase s)) ∧
    (s.plan.phase = .start ∨ s.plan.phase = .mains →
      (s.store.state ≠ .idle → answers (panelAnswered .busy s)) ∧
      (s.store.state = .idle →
        (rejected → answers (panelAnswered .range s)) ∧
        (¬ rejected →
          ∃ n, 1 ≤ n ∧ answers { panelAnswered .accepted s with store := { s.store with
            state := .programming, writing := some (imageOf units),
            programTimer := s.startTimer n } })))

/-! ## Expiries, the store and reset -/

/-- CAR_LINK_TIMEOUT: the link is LOST; in a generator phase the car is LOST with the role it had as its
pre-loss role, its waiting entry and its place in the recall list are gone, all else of it is frozen and
CAR_LOST is set; in START and MAINS only the link changes (R50, R51, R52). That a car already LOST, its link
heard again without a STATE, keeps the pre-loss role it has, and that CAR_LOST is then set again, is the
model's choice (log 14). -/
def Obligations.CarLinkLost : Prop :=
  ∀ (s : State) (c : CarIx),
    (s.car c).link = .up → (s.car c).linkTimer.isSome = true →
    let cut := s.updCar c (fun r => { r with link := .lost, linkTimer := none })
    (s.plan.phase.generator = false → s.Settled → exec (.carLinkTimeout c) s = .next cut) ∧
    (s.plan.phase.generator = true → s.Consistent →
      ∃ t, exec (.carLinkTimeout c) s = .next t ∧
        OnlyDecisions cut t ∧ t.role c = .lost ∧
        (t.car c).preLoss = (if s.role c = .lost then (s.car c).preLoss else some (s.role c)) ∧
        (t.car c).powered = (s.car c).powered ∧
        (t.trip c).state = (if (s.trip c).state = .waiting then .none else (s.trip c).state) ∧
        ((s.trip c).state = .waiting → (t.trip c).verdict = .dropped .link) ∧
        (t.car c).slotStart = (s.car c).slotStart ∧ (t.car c).recallTimer = (s.car c).recallTimer ∧
        c ∉ t.queue.entries ∧ listed t c = false ∧
        t.hasNotice .panel PanelNotice.carLost.number = true)

/-- SUPPLY_LINK_TIMEOUT and PANEL_LINK_TIMEOUT: the link is LOST with its timer stopped and the other of the
two masters is told; nothing else changes (R118, R119, R146). -/
def Obligations.MasterLinksLost : Prop :=
  ∀ s : State,
    (s.supplyLink.link = .up → s.supplyLink.timer.isSome = true →
      exec .supplyLinkTimeout s =
        .next ({ s with supplyLink := ⟨.lost, none⟩ }.noticePanel .supplySilent)) ∧
    (s.panelLink.link = .up → s.panelLink.timer.isSome = true →
      exec .panelLinkTimeout s =
        .next ({ s with panelLink := ⟨.lost, none⟩ }.noticeSupply .panelSilent))

/-- SETTLE_EXPIRY: the phase is RECALL, or SERVICE when nothing is left to recall, the gate is OPEN, and
every HELD car whose recall has not failed is PARKED at its recall landing, or selected since, and elsewhere
listed in the tier of its status or called, the cars called standing ahead of those left in the list (R65,
R99, R105, R107, R110). Where the phase is SERVICE a selection run has been made (R112). -/
def Obligations.SettleExpires : Prop :=
  ∀ s : State,
    s.Consistent → s.plan.phase = .outage → s.plan.settleTimer.isSome = true →
    ∃ t, exec .settleExpiry s = .next t ∧ OnlyDecisions s t ∧
      (t.plan.phase = .recall ∨ t.plan.phase = .service ∧ t.plan.recallDone = true) ∧
      t.plan.settleTimer = none ∧
      t.gate = { s.gate with state := .opened, holder := .none, recoveryTimer := none } ∧
      t.queue.entries = [] ∧
      (∀ c, s.role c = .held →
        ((s.car c).recallFailed = true → t.role c = .held ∧ listed t c = false) ∧
        ((s.car c).recallFailed = false → t.Joined c) ∧
        (t.role c = .recall → ∀ e ∈ t.plan.recallList,
          let tier := (t.car c).tierNow
          let rank := rankOf t.store.active
          tier < e.tier ∨ tier = e.tier ∧
            (rank c < rank e.car ∨ rank c = rank e.car ∧ c.val < e.car.val))) ∧
      s.SelectionMade t ∧
      t.hasNotice .supply SupplyNotice.phase.number = true ∧
      t.hasNotice .panel PanelNotice.phase.number = true

/-- RETURN_TIMER_EXPIRY, START_WINDOW_EXPIRY and PANEL_WINDOW_EXPIRY: clearance is forced; an overdue car
start leaves its trip STARTING and the gate in RECOVERY; an overdue panel start gives up its claim (R73, R81,
R116). -/
def Obligations.WindowsAndReturnExpire : Prop :=
  ∀ s : State,
    (s.plan.phase = .returning → s.plan.clearance = .notClear → s.plan.returnTimer.isSome = true →
      exec .returnTimerExpiry s = .next (({ s with plan := { s.plan with
        clearance := .clear, returnTimer := none } }.noticeSupply .clear).noticePanel
          .returnForced)) ∧
    (∀ c, s.gate.state = .carStart → s.gate.holder = .car c → s.gate.startTimer.isSome = true →
      exec .startWindowExpiry s = .next ({ s.updTrip c (fun t => { t with startOverdue := true }) with
        gate := s.recovering }.noticePanel .startOverdue)) ∧
    (s.gate.state = .panelStart → s.gate.panelTimer.isSome = true →
      exec .panelWindowExpiry s = .next ({ s with gate := { s.recovering with
        heldClaim := none,
        fairness := if s.queue.entries = [] then s.gate.fairness
          else s.startTimer (tFair s.store.active) } }.noticePanel .startOverdue))

/-- RECALL_SUPERVISION_EXPIRY: a car in motion is overdue and keeps its slot; any other has failed its recall
and is HELD out of the list, or has HELD as its pre-loss role (R109). That the slot start time goes with the
slot is the model's choice (log 34). -/
def Obligations.RecallSupervisionExpires : Prop :=
  ∀ (s : State) (c : CarIx),
    s.Consistent → s.inRecall c = true → (s.car c).recallTimer.isSome = true →
    ∃ t, exec (.recallSupervisionExpiry c) s = .next t ∧ OnlyDecisions s t ∧
      t.hasNotice .panel PanelNotice.recallFailed.number = true ∧
      (t.car c).recallTimer = none ∧
      ((s.trip c).state.moving = true →
        (t.trip c).recallOverdue = true ∧ t.role c = s.role c ∧
        (t.trip c).state = (s.trip c).state ∧ (t.car c).powered = (s.car c).powered ∧
        (t.car c).slotStart = (s.car c).slotStart) ∧
      ((s.trip c).state.moving = false →
        (t.car c).recallFailed = true ∧ (t.car c).powered = false ∧ (t.car c).slotStart = none ∧
        (t.trip c).state = .none ∧ listed t c = false ∧ c ∉ t.queue.entries ∧
        (s.role c = .recall → t.role c = .held) ∧
        (s.role c = .lost → t.role c = .lost ∧ (t.car c).preLoss = some .held))

/-- FAIRNESS_EXPIRY and HEAD_AGE_EXPIRY: the window stops, and the head is aged; nothing more happens while
the grant rule does not run or may grant nothing, and in an OPEN gate the end of the window grants a claim
that waits (R67, R82, R89). -/
def Obligations.FairnessAndHeadAgeExpire : Prop :=
  ∀ s : State, s.Settled →
    let noGrant := s.gate.state ≠ .opened ∨ s.gate.pendingClaim = none ∧
      (s.account.overcommit = .holding ∨ s.supplyLink.link ≠ .up)
    (s.gate.fairness.isSome = true →
      (noGrant →
        exec .fairnessExpiry s = .next { s with gate := { s.gate with fairness := none } }) ∧
      (∀ e, s.gate.state = .opened → s.gate.pendingClaim = some e →
        exec .fairnessExpiry s = .next ({ s with gate := { s.gate with
          fairness := none, pendingClaim := none, heldClaim := some e, state := .panelStart,
          holder := .panel, panelTimer := s.startTimer (tPstart s.store.active) } }.noticePanel
            .panelGrant))) ∧
    (s.queue.headTimer.isSome = true →
      (noGrant → exec .headAgeExpiry s = .next { s with queue := { s.queue with
        headTimer := none, headAged := true } }) ∧
      ∃ t, exec .headAgeExpiry s = .next t ∧ OnlyDecisions s t ∧
        (t.queue.entries = s.queue.entries → t.queue.headAged = true ∧ t.queue.headTimer = none))

/-- SHED_SUPERVISION_EXPIRY: the victim's entry lapses and stays in the set, its trip goes on as it was, and
SHED_OVERDUE is set; the pass that follows meets the shortfalls as far as victims go, adding entries, or its
deselections end the overcommit (R122 to R129). -/
def Obligations.ShedSupervisionExpires : Prop :=
  ∀ (s : State) (c : CarIx),
    s.Sound → shedTimerRuns s c = true →
    ∃ t, exec (.shedSupervisionExpiry c) s = .next t ∧ OnlyDecisions s t ∧
      t.hasNotice .panel PanelNotice.shedOverdue.number = true ∧
      (t.trip c).state = .running ∧ (t.trip c).shedOrdered = true ∧ t.role c = s.role c ∧
      (t.car c).charge = (s.car c).charge ∧
      (t.account.overcommit = .none ∧ t.shed.victims = [] ∨
        t.account.overcommit = .holding ∧
        ∃ more, t.shed.victims = s.shed.victims.map (fun v : Victim =>
          if v.car = c then { v with standing := .lapsed, timer := none } else v) ++ more ∧
          ∀ v ∈ more, v.car ≠ c ∧ v.standing = .counting) ∧
      (t.account.overcommit = .holding →
        { s with shed := { s.shed with victims := s.shed.victims.map (fun v : Victim =>
          if v.car = c then { v with standing := .lapsed, timer := none } else v) } }.ShedMade t)

/-- STORE_PROGRAMMING_END: the store holds the image and its check word; in START and MAINS the write ends
with STORE_DONE and, with SINGLE inactive, the image active; in any other phase it awaits activation (R156).
The records of a car configured before and after are kept; a port that becomes absent is quiet, and one that
becomes configured inside a select waits for its next one (R43). That DOUT of a port that becomes absent is
high, whatever its SELn, is the model's choice (log 25). -/
def Obligations.StoreProgrammingEnds : Prop :=
  ∀ (s : State) (image : Image),
    s.store.state = .programming → s.store.writing = some image → s.Settled →
    ∃ t, exec .storeProgrammingEnd s = .next t ∧
      t.store.nv = .formed image ∧ t.store.nv.matching = true ∧ t.store.writing = none ∧
      t.store.carsel = s.store.carsel ∧ t.store.single = s.store.single ∧
      (s.plan.phase = .start ∨ s.plan.phase = .mains →
        t.store.state = .idle ∧
        t.hasNotice .panel PanelNotice.storeDone.number = true ∧
        (s.store.single = true → t.store.active = s.store.active ∧ t.store.site = s.store.site ∧
          t.cars = s.cars) ∧
        (s.store.single = false → t.store.active = image ∧ t.store.site = .valid ∧
          ∀ c, t.car c = (if s.configured c = t.configured c then s.car c
            else .atReset (if t.configured c then .free else .absent)) ∧
            (s.configured c = true → t.configured c = false →
              (t.port (.car c)).notices = 0 ∧ (t.port (.car c)).request = none ∧
              (t.port (.car c)).reply = none ∧ (t.port (.car c)).dout = true ∧
              ignores t (.car c) = true) ∧
            (s.configured c = false → t.configured c = true →
              (t.port (.car c)).awaitSelect = (s.port (.car c)).selLow))) ∧
      (s.plan.phase ≠ .start → s.plan.phase ≠ .mains →
        t = { s with store := { s.store with
          nv := .formed image, state := .awaitingActivation,
          writing := none, programTimer := none } })

/-- RESET and RESET_RELEASE: whatever the state, the reset and its release leave the values of R160's table
and each block's values after reset, with the straps sampled; a write that was cut leaves a mixture of new
and earlier units that does not match, and any other store is as it was (R152, R157, R159, R160). What the
part does before the release, and that a port's SELn line stays where its master holds it, is the model's
choice (log 11). -/
def Obligations.ResetAndRelease : Prop :=
  ∀ (s : State) (carsel : BitVec 2) (single : Bool),
    ∃ held t, exec .reset s = .next held ∧ exec (.resetRelease carsel single) held = .next t ∧
      held.rstLow = true ∧ (∀ p, held.atn p = false ∧ ignores held p = true) ∧
      (s.store.state ≠ .programming → held.store.nv = s.store.nv) ∧
      (s.store.state = .programming → ∀ image, s.store.writing = some image →
        held.store.nv.matching = false ∧ ∀ k : Fin 35,
          held.store.nv.image[k] = image[k] ∨ held.store.nv.image[k] = s.store.nv.image[k]) ∧
      (let good := held.store.nv.matching = true ∧
          validImage held.store.nv.image (strappedCount carsel) = true;
        (good → single = false →
          t.store.active = held.store.nv.image ∧ t.store.site = .valid) ∧
        (¬ good ∨ single = true →
          t.store.active = defaultImage (strappedCount carsel) ∧ t.store.site = .default) ∧
        (good → (t.port .panel).notices = 0) ∧
        (¬ good → (t.port .panel).notices = noticeBit PanelNotice.siteInvalid.number)) ∧
      t.store.state = .idle ∧ t.store.carsel = carsel ∧ t.store.single = single ∧
      t.store.nv = held.store.nv ∧ t.rstLow = false ∧
      t.plan = .atReset ∧ t.gate = .atReset ∧ t.queue = .atReset ∧ t.shed = .atReset ∧
      t.account = .atReset ∧ t.supplyLink = .atReset ∧ t.panelLink = .atReset ∧
      (∀ c, t.car c = .atReset (if t.configured c then .free else .absent)) ∧
      (∀ p, p ≠ .panel → t.port p = { PortIf.atReset with selLow := (s.port p).selLow }) ∧
      { t.port .panel with notices := 0 } =
        { PortIf.atReset with selLow := (s.port .panel).selLow } ∧
      (∀ p, t.atn p = true ↔ (t.port p).notices ≠ 0)

/-! ## Invariants that every step keeps -/

/-- R2, 1.5, 2.1: every profile field, every stored figure and every held value stays in its range. -/
def Obligations.RangesKept : Prop :=
  ∀ s t : State, s.Sound → step s = .next t → t.InRange

/-- R41, R135, R138, R148, R154: the active table stays a validated image or the single-car defaults, as the
site state says, an absent port's record stays at its reset values with its port quiet, and a request in
progress on a port stays one of that port's own, with units still to come. That no port is inside a unit
between two steps is the model's choice (log 30). -/
def Obligations.StoreAndAbsentKept : Prop :=
  ∀ s t : State, s.Sound → step s = .next t → t.StoreSound ∧ t.AbsentQuiet ∧ t.PortsSound

/-- R64, R69, R83: queue, stack, recall list, roles and gate keep agreeing with the trip records. -/
def Obligations.TripsAgreeKept : Prop :=
  ∀ s t : State, s.Sound → step s = .next t → t.Consistent

/-- R37, R121: an overcommit is held exactly while a condition holds, and the controller is ACTIVE exactly
then. -/
def Obligations.OvercommitSettledKept : Prop :=
  ∀ s t : State, s.Sound → step s = .next t → t.Settled

/-- R111: cars in recall never number more than Krec, cars in service never more than Nsel, and in
single-car mode the two groups together never more than one. R107, R110: with the supply link UP no car waits
in the list while it could be called, and in RECALL the initial recall is not over. -/
def Obligations.PlanBoundsKept : Prop :=
  ∀ s t : State, s.Sound → step s = .next t → t.PlanBounded ∧ t.CallsMade

/-- R63, R99, R102 to R104, R109, R116: roles, links, pending effects, slots and the phase's timers keep
agreeing with the phase. The model's choices: that the service order goes on holding a LOST car of pre-loss
role SERVICE (log 13), that a slot start time is held by the cars that count toward Krec and by no other
(log 34), and which pending effects a LOST car keeps over the generator-loss path (log 15). -/
def Obligations.RecordsAndTimersKept : Prop :=
  ∀ s t : State, s.Sound → step s = .next t → t.RecordsSound ∧ t.PhaseTimed

/-- R84, R89, R105: the queue and the recall list stay in their orders, and the head's age is kept only for
a head under bypass. -/
def Obligations.OrdersKept : Prop :=
  ∀ s t : State, s.Sound → step s = .next t → t.Ordered

/-- R121, R126, R128: the victim set keeps holding at most one entry a car, each for a running trip ordered
to land, with the trip's figure as its relief. -/
def Obligations.VictimsKept : Prop :=
  ∀ s t : State, s.Sound → step s = .next t → t.VictimsSound

/-! ## Whole-machine rules -/

/-- R67: a trip that a well-formed command starts is started in RECALL or SERVICE with the supply link UP, and
the command leaves the headroom non-negative, no feeder over its rating and the start within the step limit.
A RETRANSFER that brings the supply link back may take the phase on to RETURN within the same command, since
the link's return runs the grant rule before the report acts (R118). -/
def Obligations.GrantsAreSafe : Prop :=
  ∀ (s t : State) (i : Instr) (c : CarIx),
    s.Sound → i.wellFormed = true → exec i s = .next t →
    (s.trip c).state ≠ .starting → (t.trip c).state = .starting →
    (t.plan.phase = .recall ∨ t.plan.phase = .service ∨
      s.supplyLink.link ≠ .up ∧ t.plan.phase = .returning) ∧
    t.supplyLink.link = .up ∧
    0 ≤ t.headroom ∧ (t.singleCar = true ∨ ∀ f, t.feederLoad f ≤ t.rating f) ∧
    (t.account.stepLimit = 0 ∨ (t.trip c).s ≤ t.account.stepLimit) ∧
    t.gate.state = .carStart ∧ t.gate.holder = .car c ∧ (t.car c).powered = true

/-- What a car port's command cannot touch: the store, the other links, the account's limits, the selection
mode, the clock, another car's profile, status, inclusion, link or figures, and another port's exchange; on
other ports it only adds notices. The premise, that a request in progress is one of its own port's, is kept
by every step (`StoreAndAbsentKept`). -/
def Obligations.CarPortsStayApart : Prop :=
  ∀ (s t : State) (i : Instr) (c : CarIx),
    (∀ p q, (s.port p).request = some q → q.req ∈ requestsOf p) →
    senderOf i = some (.car c) → exec i s = .next t →
    t.store = s.store ∧ t.supplyLink = s.supplyLink ∧ t.panelLink = s.panelLink ∧
    t.account.limits = s.account.limits ∧ t.plan.mode = s.plan.mode ∧
    t.plan.manualList = s.plan.manualList ∧ t.rstLow = s.rstLow ∧ t.now = s.now ∧
    t.pending = s.pending ∧ (t.car c).included = (s.car c).included ∧
    (∀ d, d ≠ c → (t.car d).inputs = (s.car d).inputs ∧ (t.trip d).figures = (s.trip d).figures) ∧
    (∀ p, p ≠ .car c →
      (t.port p).framing = (s.port p).framing ∧ noticesKept (s.port p).notices (t.port p).notices)

/-- What the supply port and the panel port cannot touch of each other's and of the cars': the supply never
changes a reserve, the selection or a car's inclusion; the panel never changes the offer, its two limits, or
a car's profile, status or link; neither changes a trip's figures. A store write that awaits activation is
left aside for the supply, whose MAINS report ends it (R156). The premise, that a request in progress is one
of its own port's, is kept by every step (`StoreAndAbsentKept`). -/
def Obligations.SupplyAndPanelStayApart : Prop :=
  ∀ (s t : State) (i : Instr),
    (∀ p q, (s.port p).request = some q → q.req ∈ requestsOf p) → exec i s = .next t →
    (senderOf i = some .supply →
      t.account.reserves = s.account.reserves ∧ t.plan.mode = s.plan.mode ∧
      t.plan.manualList = s.plan.manualList ∧ t.panelLink = s.panelLink ∧
      (s.store.state ≠ .awaitingActivation → t.store = s.store ∧
        ∀ c, (t.car c).inputs = (s.car c).inputs ∧ (t.trip c).figures = (s.trip c).figures ∧
          (t.port (.car c)).framing = (s.port (.car c)).framing)) ∧
    (senderOf i = some .panel →
      t.account.offer = s.account.offer ∧ t.account.stepLimit = s.account.stepLimit ∧
      t.account.absorb = s.account.absorb ∧ t.supplyLink = s.supplyLink ∧
      t.store.active = s.store.active ∧ t.store.nv = s.store.nv ∧
      (∀ c, { (t.car c).inputs with included := (s.car c).included } = (s.car c).inputs ∧
        (t.trip c).figures = (s.trip c).figures ∧
        (t.port (.car c)).framing = (s.port (.car c)).framing))
end

