-- ==== Sys2Proof/Laws/State.lean ====
section
/-!
SUPPORT. What each named update of the state changes and what it leaves: one small lemma per field per
update, so that no later proof unfolds a record update.
-/

namespace Sys2Proof.Machine

/-! ## Changing one car -/

@[simp] theorem State.updCar_car_same (s : State) (c : CarIx) (f : CarRecord → CarRecord) :
    (s.updCar c f).car c = f (s.car c) := by
  simp [State.updCar, State.car]

theorem State.updCar_car (s : State) (c d : CarIx) (f : CarRecord → CarRecord) :
    (s.updCar c f).car d = if d = c then f (s.car d) else s.car d := by
  by_cases h : d = c
  · subst h; simp
  · have : c.val ≠ d.val := fun e => h (Fin.ext e.symm)
    simp [State.updCar, State.car, h, Vector.getElem_set_ne, this]

@[simp] theorem State.updCar_car_ne (s : State) {c d : CarIx} (f : CarRecord → CarRecord)
    (h : d ≠ c) : (s.updCar c f).car d = s.car d := by
  simp [State.updCar_car, h]

@[simp] theorem State.updCar_ports (s : State) (c : CarIx) (f : CarRecord → CarRecord) :
    (s.updCar c f).ports = s.ports := rfl
@[simp] theorem State.updCar_port (s : State) (c : CarIx) (f : CarRecord → CarRecord) (p : Port) :
    (s.updCar c f).port p = s.port p := rfl
@[simp] theorem State.updCar_supplyLink (s : State) (c : CarIx) (f : CarRecord → CarRecord) :
    (s.updCar c f).supplyLink = s.supplyLink := rfl
@[simp] theorem State.updCar_panelLink (s : State) (c : CarIx) (f : CarRecord → CarRecord) :
    (s.updCar c f).panelLink = s.panelLink := rfl
@[simp] theorem State.updCar_account (s : State) (c : CarIx) (f : CarRecord → CarRecord) :
    (s.updCar c f).account = s.account := rfl
@[simp] theorem State.updCar_gate (s : State) (c : CarIx) (f : CarRecord → CarRecord) :
    (s.updCar c f).gate = s.gate := rfl
@[simp] theorem State.updCar_queue (s : State) (c : CarIx) (f : CarRecord → CarRecord) :
    (s.updCar c f).queue = s.queue := rfl
@[simp] theorem State.updCar_plan (s : State) (c : CarIx) (f : CarRecord → CarRecord) :
    (s.updCar c f).plan = s.plan := rfl
@[simp] theorem State.updCar_shed (s : State) (c : CarIx) (f : CarRecord → CarRecord) :
    (s.updCar c f).shed = s.shed := rfl
@[simp] theorem State.updCar_store (s : State) (c : CarIx) (f : CarRecord → CarRecord) :
    (s.updCar c f).store = s.store := rfl
@[simp] theorem State.updCar_rstLow (s : State) (c : CarIx) (f : CarRecord → CarRecord) :
    (s.updCar c f).rstLow = s.rstLow := rfl
@[simp] theorem State.updCar_now (s : State) (c : CarIx) (f : CarRecord → CarRecord) :
    (s.updCar c f).now = s.now := rfl
@[simp] theorem State.updCar_freeIx (s : State) (c : CarIx) (f : CarRecord → CarRecord) :
    (s.updCar c f).freeIx = s.freeIx := rfl
@[simp] theorem State.updCar_pending (s : State) (c : CarIx) (f : CarRecord → CarRecord) :
    (s.updCar c f).pending = s.pending := rfl

/-! ## Changing one trip: `updTrip` is `updCar`, so its other fields follow from the lemmas above -/

@[simp] theorem State.updTrip_trip_same (s : State) (c : CarIx) (f : Trip → Trip) :
    (s.updTrip c f).trip c = f (s.trip c) := by
  simp [State.updTrip, State.trip]

@[simp] theorem State.updTrip_trip_ne (s : State) {c d : CarIx} (f : Trip → Trip) (h : d ≠ c) :
    (s.updTrip c f).trip d = s.trip d := by
  simp [State.updTrip, State.trip, h]

@[simp] theorem State.updTrip_car_ne (s : State) {c d : CarIx} (f : Trip → Trip) (h : d ≠ c) :
    (s.updTrip c f).car d = s.car d := by
  simp [State.updTrip, h]

@[simp] theorem State.updTrip_role (s : State) (c d : CarIx) (f : Trip → Trip) :
    (s.updTrip c f).role d = s.role d := by
  simp only [State.role, State.updTrip, State.updCar_car]; split <;> rfl

@[simp] theorem State.updTrip_gate (s : State) (c : CarIx) (f : Trip → Trip) :
    (s.updTrip c f).gate = s.gate := rfl
@[simp] theorem State.updTrip_queue (s : State) (c : CarIx) (f : Trip → Trip) :
    (s.updTrip c f).queue = s.queue := rfl
@[simp] theorem State.updTrip_plan (s : State) (c : CarIx) (f : Trip → Trip) :
    (s.updTrip c f).plan = s.plan := rfl
@[simp] theorem State.updTrip_account (s : State) (c : CarIx) (f : Trip → Trip) :
    (s.updTrip c f).account = s.account := rfl
@[simp] theorem State.updTrip_shed (s : State) (c : CarIx) (f : Trip → Trip) :
    (s.updTrip c f).shed = s.shed := rfl
@[simp] theorem State.updTrip_store (s : State) (c : CarIx) (f : Trip → Trip) :
    (s.updTrip c f).store = s.store := rfl
@[simp] theorem State.updTrip_port (s : State) (c : CarIx) (f : Trip → Trip) (p : Port) :
    (s.updTrip c f).port p = s.port p := rfl
@[simp] theorem State.updTrip_now (s : State) (c : CarIx) (f : Trip → Trip) :
    (s.updTrip c f).now = s.now := rfl

/-! ## Changing every car -/

@[simp] theorem State.updAllCars_car (s : State) (f : CarIx → CarRecord → CarRecord) (c : CarIx) :
    (s.updAllCars f).car c = f c (s.car c) := by
  simp [State.updAllCars, State.car]

@[simp] theorem State.updAllCars_ports (s : State) (f : CarIx → CarRecord → CarRecord) :
    (s.updAllCars f).ports = s.ports := rfl
@[simp] theorem State.updAllCars_supplyLink (s : State) (f : CarIx → CarRecord → CarRecord) :
    (s.updAllCars f).supplyLink = s.supplyLink := rfl
@[simp] theorem State.updAllCars_panelLink (s : State) (f : CarIx → CarRecord → CarRecord) :
    (s.updAllCars f).panelLink = s.panelLink := rfl
@[simp] theorem State.updAllCars_account (s : State) (f : CarIx → CarRecord → CarRecord) :
    (s.updAllCars f).account = s.account := rfl
@[simp] theorem State.updAllCars_gate (s : State) (f : CarIx → CarRecord → CarRecord) :
    (s.updAllCars f).gate = s.gate := rfl
@[simp] theorem State.updAllCars_queue (s : State) (f : CarIx → CarRecord → CarRecord) :
    (s.updAllCars f).queue = s.queue := rfl
@[simp] theorem State.updAllCars_plan (s : State) (f : CarIx → CarRecord → CarRecord) :
    (s.updAllCars f).plan = s.plan := rfl
@[simp] theorem State.updAllCars_shed (s : State) (f : CarIx → CarRecord → CarRecord) :
    (s.updAllCars f).shed = s.shed := rfl
@[simp] theorem State.updAllCars_store (s : State) (f : CarIx → CarRecord → CarRecord) :
    (s.updAllCars f).store = s.store := rfl

/-! ## Changing one port -/

/-- A port's place as a number. -/
theorem portIx_val : ∀ p : Port, (portIx p).val = match p with
    | .car c => c.val
    | .supply => 12
    | .panel => 13
  | .car _ => rfl
  | .supply => rfl
  | .panel => rfl

/-- Different ports have different places. -/
theorem portIx_inj {p q : Port} (h : portIx p = portIx q) : p = q := by
  have hv : (portIx p).val = (portIx q).val := by rw [h]
  rw [portIx_val, portIx_val] at hv
  cases p with
  | car c =>
    cases q with
    | car d => exact congrArg Port.car (Fin.ext hv)
    | supply => simp only at hv; omega
    | panel => simp only at hv; omega
  | supply =>
    cases q with
    | car d => simp only at hv; omega
    | supply => rfl
    | panel => simp only at hv; omega
  | panel =>
    cases q with
    | car d => simp only at hv; omega
    | supply => simp only at hv; omega
    | panel => rfl

@[simp] theorem State.updPort_port_same (s : State) (p : Port) (f : PortIf → PortIf) :
    (s.updPort p f).port p = f (s.port p) := by
  simp [State.updPort, State.port]

@[simp] theorem State.updPort_port_ne (s : State) {p q : Port} (f : PortIf → PortIf) (h : q ≠ p) :
    (s.updPort p f).port q = s.port q := by
  have : (portIx p).val ≠ (portIx q).val := fun e => h (portIx_inj (Fin.ext e)).symm
  simp [State.updPort, State.port, Vector.getElem_set_ne, this]

theorem State.updPort_port (s : State) (p q : Port) (f : PortIf → PortIf) :
    (s.updPort p f).port q = if q = p then f (s.port q) else s.port q := by
  by_cases h : q = p
  · subst h; simp
  · simp [h]

@[simp] theorem State.updPort_cars (s : State) (p : Port) (f : PortIf → PortIf) :
    (s.updPort p f).cars = s.cars := rfl
@[simp] theorem State.updPort_car (s : State) (p : Port) (f : PortIf → PortIf) (c : CarIx) :
    (s.updPort p f).car c = s.car c := rfl
@[simp] theorem State.updPort_supplyLink (s : State) (p : Port) (f : PortIf → PortIf) :
    (s.updPort p f).supplyLink = s.supplyLink := rfl
@[simp] theorem State.updPort_panelLink (s : State) (p : Port) (f : PortIf → PortIf) :
    (s.updPort p f).panelLink = s.panelLink := rfl
@[simp] theorem State.updPort_account (s : State) (p : Port) (f : PortIf → PortIf) :
    (s.updPort p f).account = s.account := rfl
@[simp] theorem State.updPort_gate (s : State) (p : Port) (f : PortIf → PortIf) :
    (s.updPort p f).gate = s.gate := rfl
@[simp] theorem State.updPort_queue (s : State) (p : Port) (f : PortIf → PortIf) :
    (s.updPort p f).queue = s.queue := rfl
@[simp] theorem State.updPort_plan (s : State) (p : Port) (f : PortIf → PortIf) :
    (s.updPort p f).plan = s.plan := rfl
@[simp] theorem State.updPort_shed (s : State) (p : Port) (f : PortIf → PortIf) :
    (s.updPort p f).shed = s.shed := rfl
@[simp] theorem State.updPort_store (s : State) (p : Port) (f : PortIf → PortIf) :
    (s.updPort p f).store = s.store := rfl
@[simp] theorem State.updPort_rstLow (s : State) (p : Port) (f : PortIf → PortIf) :
    (s.updPort p f).rstLow = s.rstLow := rfl
@[simp] theorem State.updPort_now (s : State) (p : Port) (f : PortIf → PortIf) :
    (s.updPort p f).now = s.now := rfl
@[simp] theorem State.updPort_freeIx (s : State) (p : Port) (f : PortIf → PortIf) :
    (s.updPort p f).freeIx = s.freeIx := rfl
@[simp] theorem State.updPort_pending (s : State) (p : Port) (f : PortIf → PortIf) :
    (s.updPort p f).pending = s.pending := rfl

/-! ## Setting notices -/

@[simp] theorem State.setNotice_car (s : State) (p : Port) (n : Nat) (c : CarIx) :
    (s.setNotice p n).car c = s.car c := rfl

theorem State.noticeCar_eq (s : State) (c : CarIx) (k : CarNotice) :
    s.noticeCar c k = s ∨ s.noticeCar c k = s.setNotice (.car c) k.number := by
  unfold State.noticeCar; split <;> simp

@[simp] theorem State.noticeCar_car (s : State) (c d : CarIx) (k : CarNotice) :
    (s.noticeCar c k).car d = s.car d := by
  rcases s.noticeCar_eq c k with h | h <;> rw [h]; rfl
@[simp] theorem State.noticeCar_supplyLink (s : State) (c : CarIx) (k : CarNotice) :
    (s.noticeCar c k).supplyLink = s.supplyLink := by
  rcases s.noticeCar_eq c k with h | h <;> rw [h]; rfl
@[simp] theorem State.noticeCar_panelLink (s : State) (c : CarIx) (k : CarNotice) :
    (s.noticeCar c k).panelLink = s.panelLink := by
  rcases s.noticeCar_eq c k with h | h <;> rw [h]; rfl
@[simp] theorem State.noticeCar_account (s : State) (c : CarIx) (k : CarNotice) :
    (s.noticeCar c k).account = s.account := by
  rcases s.noticeCar_eq c k with h | h <;> rw [h]; rfl
@[simp] theorem State.noticeCar_gate (s : State) (c : CarIx) (k : CarNotice) :
    (s.noticeCar c k).gate = s.gate := by
  rcases s.noticeCar_eq c k with h | h <;> rw [h]; rfl
@[simp] theorem State.noticeCar_queue (s : State) (c : CarIx) (k : CarNotice) :
    (s.noticeCar c k).queue = s.queue := by
  rcases s.noticeCar_eq c k with h | h <;> rw [h]; rfl
@[simp] theorem State.noticeCar_plan (s : State) (c : CarIx) (k : CarNotice) :
    (s.noticeCar c k).plan = s.plan := by
  rcases s.noticeCar_eq c k with h | h <;> rw [h]; rfl
@[simp] theorem State.noticeCar_shed (s : State) (c : CarIx) (k : CarNotice) :
    (s.noticeCar c k).shed = s.shed := by
  rcases s.noticeCar_eq c k with h | h <;> rw [h]; rfl
@[simp] theorem State.noticeCar_store (s : State) (c : CarIx) (k : CarNotice) :
    (s.noticeCar c k).store = s.store := by
  rcases s.noticeCar_eq c k with h | h <;> rw [h]; rfl
@[simp] theorem State.noticeCar_rstLow (s : State) (c : CarIx) (k : CarNotice) :
    (s.noticeCar c k).rstLow = s.rstLow := by
  rcases s.noticeCar_eq c k with h | h <;> rw [h]; rfl
@[simp] theorem State.noticeCar_now (s : State) (c : CarIx) (k : CarNotice) :
    (s.noticeCar c k).now = s.now := by
  rcases s.noticeCar_eq c k with h | h <;> rw [h]; rfl
@[simp] theorem State.noticeCar_pending (s : State) (c : CarIx) (k : CarNotice) :
    (s.noticeCar c k).pending = s.pending := by
  rcases s.noticeCar_eq c k with h | h <;> rw [h]; rfl

@[simp] theorem State.noticeSupply_car (s : State) (k : SupplyNotice) (c : CarIx) :
    (s.noticeSupply k).car c = s.car c := rfl
@[simp] theorem State.noticePanel_car (s : State) (k : PanelNotice) (c : CarIx) :
    (s.noticePanel k).car c = s.car c := rfl
@[simp] theorem State.noticeSupply_plan (s : State) (k : SupplyNotice) :
    (s.noticeSupply k).plan = s.plan := rfl
@[simp] theorem State.noticePanel_plan (s : State) (k : PanelNotice) :
    (s.noticePanel k).plan = s.plan := rfl
@[simp] theorem State.noticeSupply_gate (s : State) (k : SupplyNotice) :
    (s.noticeSupply k).gate = s.gate := rfl
@[simp] theorem State.noticePanel_gate (s : State) (k : PanelNotice) :
    (s.noticePanel k).gate = s.gate := rfl
@[simp] theorem State.noticeSupply_queue (s : State) (k : SupplyNotice) :
    (s.noticeSupply k).queue = s.queue := rfl
@[simp] theorem State.noticePanel_queue (s : State) (k : PanelNotice) :
    (s.noticePanel k).queue = s.queue := rfl
@[simp] theorem State.noticeSupply_account (s : State) (k : SupplyNotice) :
    (s.noticeSupply k).account = s.account := rfl
@[simp] theorem State.noticePanel_account (s : State) (k : PanelNotice) :
    (s.noticePanel k).account = s.account := rfl
@[simp] theorem State.noticeSupply_store (s : State) (k : SupplyNotice) :
    (s.noticeSupply k).store = s.store := rfl
@[simp] theorem State.noticePanel_store (s : State) (k : PanelNotice) :
    (s.noticePanel k).store = s.store := rfl

end Sys2Proof.Machine
end

