-- ==== Sys2Proof/Laws/Cascade.lean ====
section
/-!
SUPPORT. Everything the closing of an event can do, said once: it is a chain of the moves below, each under
the conditions its rule gives. A property that every move keeps is kept by `closeEvent`.
-/

namespace Sys2Proof.Machine

/-- One act of the sequencer, the account, the queue, the controller or the gate inside an event. -/
inductive Move (s : State) : State → Prop where
  /-- A call of the head of the recall list (R107). -/
  | call (e : RecallEntry) (rest : List RecallEntry) (list : s.plan.recallList = e :: rest)
      (can : canCall s = true) :
      Move s (callCar e.car { s with plan := { s.plan with recallList := rest } })
  /-- The end of the initial recall (R110). -/
  | endRecall (ended : recallOver s = true) : Move s (endRecall s)
  /-- An overcommit begins (R37). -/
  | overcommitBegins (was : s.account.overcommit = .none) (cond : s.anyCondition = true) :
      Move s (overcommitBegins s)
  /-- An overcommit ends (R37). -/
  | overcommitEnds (was : s.account.overcommit = .holding) (cond : s.anyCondition = false) :
      Move s (overcommitEnds s)
  /-- The re-check drops a waiting entry (R92). -/
  | drop (c : CarIx) (r : DropReason) (waits : (s.trip c).state = .waiting)
      (reason : r = .step ∨ r = .noCapacity) : Move s (dropEntry c r s)
  /-- The controller deselects an idle service car (R125). -/
  | deselect (c : CarIx) (f : Option FeederIx) (holds : s.account.overcommit = .holding)
      (victim : idleVictim s f = some c) : Move s (deselect c s)
  /-- The controller orders a motoring car to land (R126). -/
  | land (c : CarIx) (role : Role) (f : Option FeederIx) (holds : s.account.overcommit = .holding)
      (which : role = .service ∨ role = .recall) (victim : landVictim s role f = some c) :
      Move s (orderToLand c .capacity (s.trip c).n s)
  /-- The controller orders a regenerating car to land (R128). -/
  | landReverse (c : CarIx) (holds : s.account.overcommit = .holding)
      (victim : reverseVictim s = some c) : Move s (orderToLand c .reverse (s.trip c).ret s)
  /-- A selection (R112). -/
  | select (c : CarIx) (allowed : selectionAllowed s = true) (can : canSelect s c = true)
      (room : s.serviceCount < nsel s.store.active) (fits : s.selectionFits c = true) :
      Move s (selectCar c s)
  /-- A car grant (R67, R68). -/
  | carGrant (c : CarIx) (opened : s.gate.state = .opened) (allowed : carGrantAllowed s = true)
      (candidate : c ∈ candidates s) (fits : s.fitsNow c = true) : Move s (carGrant c s)
  /-- A panel grant (R79). -/
  | panelGrant (e : EntryIx) (opened : s.gate.state = .opened)
      (claim : s.gate.pendingClaim = some e) (window : s.gate.fairness = none) :
      Move s (panelGrant e s)
  /-- A free value is drawn (log 5, 6). -/
  | draw (n : Nat) : Move s { s with freeIx := n }

/-- A chain of moves. -/
abbrev Moves : State → State → Prop := Relation.ReflTransGen Move

theorem Moves.one {s t : State} (h : Move s t) : Moves s t := Relation.ReflTransGen.single h

/-- A property that every move keeps is kept by a chain of moves. -/
theorem Moves.keeps {P : State → Prop} (step : ∀ s t, P s → Move s t → P t) {s t : State}
    (h : Moves s t) (hs : P s) : P t := by
  induction h with
  | refl => exact hs
  | tail _ m ih => exact step _ _ ih m

/-! ## Calls and the end of recall -/

theorem callHeads_moves : ∀ (k : Nat) (s : State), Moves s (callHeads k s)
  | 0, _ => .refl
  | k + 1, s => by
    unfold callHeads
    split
    · exact .refl
    · rename_i e rest list
      split
      · rename_i can
        exact .head (.call e rest list can) (callHeads_moves k _)
      · exact .refl

theorem runCalls_moves (s : State) : Moves s (runCalls s) := callHeads_moves _ s

theorem advancePlan_moves (s0 s : State) : Moves s (advancePlan s0 s) := by
  unfold advancePlan
  extract_lets a
  have calls : Moves s a := by
    unfold a
    split
    · exact runCalls_moves s
    · exact .refl
  split
  · rename_i h
    rw [Bool.and_eq_true] at h
    exact calls.tail (.endRecall h.2)
  · exact calls

/-! ## Evaluation -/

theorem evaluate_moves (s : State) : Moves s (evaluate s) := by
  unfold evaluate
  split
  · rename_i was cond; exact .one (.overcommitBegins was cond)
  · rename_i was cond; exact .one (.overcommitEnds was cond)
  · exact .refl

/-! ## Re-check -/

theorem dropEntry_moves (c : CarIx) (r : DropReason) (reason : r = .step ∨ r = .noCapacity)
    (s : State) : Moves s (dropEntry c r s) := by
  by_cases waits : (s.trip c).state = .waiting
  · exact .one (.drop c r waits reason)
  · have : dropEntry c r s = s := by simp [dropEntry, waits]
    rw [this]

theorem recheckFails_reason {s : State} {c : CarIx} {r : DropReason}
    (h : recheckFails s c = some r) : r = .step ∨ r = .noCapacity := by
  unfold recheckFails at h
  split at h
  · exact .inl (Option.some.inj h).symm
  · split at h
    · exact .inr (Option.some.inj h).symm
    · cases h

theorem recheck_moves (s : State) : Moves s (recheck s) := by
  suffices ∀ (l : List CarIx) (t : State), Moves t (l.foldl (fun t c =>
      match recheckFails s c with
      | some r => dropEntry c r t
      | none => t) t) from this _ s
  intro l
  induction l with
  | nil => exact fun t => .refl
  | cons c l ih =>
    intro t
    refine Relation.ReflTransGen.trans ?_ (ih _)
    dsimp only
    split
    · rename_i r h; exact dropEntry_moves c r (recheckFails_reason h) t
    · exact .refl

/-- A drop ends the trip of the one car, if it waits, and writes its reason (R92, R93). -/
theorem dropEntry_trip (c d : CarIx) (r : DropReason) (s : State) :
    (dropEntry c r s).trip d = if d = c ∧ (s.trip c).state = .waiting then
      { s.trip c with state := .none, verdict := .dropped r } else s.trip d := by
  have entries : ∀ l, (setEntries l s).cars = s.cars := fun l => by
    unfold setEntries; dsimp only; split
    · rfl
    · split <;> rfl
  have kept : ∀ e, (removeEntry c s).trip e = s.trip e := fun e =>
    congrArg (fun cars => (State.trip { s with cars := cars } e)) (entries _)
  unfold dropEntry
  by_cases waits : (s.trip c).state = .waiting
  · by_cases same : d = c
    · subst same
      simp only [waits, if_true, and_self]
      rw [State.trip, State.noticeCar_car, ← State.trip, State.updTrip_trip_same, kept]
    · simp only [waits, if_true, same, false_and, if_false]
      rw [State.trip, State.noticeCar_car, ← State.trip, State.updTrip_trip_ne _ _ same, kept]
  · simp [waits]

/-- What a re-check by the account of `s` makes of the trip of car c (R92). -/
def recheckedTrip (s : State) (c : CarIx) (x : Trip) : Trip :=
  match recheckFails s c with
  | some r => if x.state = .waiting then { x with state := .none, verdict := .dropped r } else x
  | none => x

theorem recheckedTrip_twice (s : State) (c : CarIx) (x : Trip) :
    recheckedTrip s c (recheckedTrip s c x) = recheckedTrip s c x := by
  unfold recheckedTrip
  cases recheckFails s c with
  | none => rfl
  | some r => by_cases w : x.state = .waiting <;> simp [w]

/-- Every waiting entry is tested on the same figures: one that fails is dropped with the reason of its first
failing test, and every other trip is as it was (R92). -/
theorem recheck_trip (s : State) (c : CarIx) :
    (recheck s).trip c =
      if c ∈ s.queue.entries then recheckedTrip s c (s.trip c) else s.trip c := by
  have one : ∀ (t : State) (d : CarIx), (match recheckFails s d with
      | some r => dropEntry d r t
      | none => t).trip c = if c = d then recheckedTrip s c (t.trip c) else t.trip c := by
    intro t d
    by_cases same : c = d
    · subst same
      unfold recheckedTrip
      cases recheckFails s c <;> simp [dropEntry_trip]
    · cases recheckFails s d <;> simp [dropEntry_trip, same]
  suffices ∀ (l : List CarIx) (t : State), (l.foldl (fun t d =>
      match recheckFails s d with
      | some r => dropEntry d r t
      | none => t) t).trip c = if c ∈ l then recheckedTrip s c (t.trip c) else t.trip c from this _ s
  intro l
  induction l with
  | nil => simp
  | cons d l ih =>
    intro t
    rw [List.foldl_cons, ih, one]
    by_cases same : c = d
    · simp [same, recheckedTrip_twice]
    · simp [same]

/-! ## The shed pass -/

theorem orderToLand_account (c : CarIx) (k : VictimKind) (n : Nat) (s : State) :
    (orderToLand c k n s).account = s.account := by
  simp [orderToLand]

theorem deselect_account (c : CarIx) (s : State) : (deselect c s).account = s.account := by
  simp only [deselect, park, leavePlan, State.noticeCar_account, State.updCar_account, dropEntry,
    removeEntry, setEntries]
  split <;> simp
  split <;> try split
  all_goals rfl

theorem shedOne_move {f : Option FeederIx} {s t : State} (holds : s.account.overcommit = .holding)
    (h : shedOne f s = some t) : Move s t ∧ t.account = s.account := by
  unfold shedOne at h
  split at h
  · rename_i c victim
    cases h
    exact ⟨.deselect c f holds victim, deselect_account c s⟩
  · split at h
    · rename_i c victim
      cases h
      exact ⟨.land c _ f holds (.inl rfl) victim, orderToLand_account ..⟩
    · split at h
      · rename_i c victim
        cases h
        exact ⟨.land c _ f holds (.inr rfl) victim, orderToLand_account ..⟩
      · cases h

theorem shedReverseOne_move {s t : State} (holds : s.account.overcommit = .holding)
    (h : shedReverseOne s = some t) : Move s t ∧ t.account = s.account := by
  unfold shedReverseOne at h
  split at h
  · rename_i c victim
    cases h
    exact ⟨.landReverse c holds victim, orderToLand_account ..⟩
  · cases h

theorem shedStep_moves {short : State → Bool} {one : State → Option State}
    (move : ∀ s t : State, s.account.overcommit = .holding → one s = some t →
      Move s t ∧ t.account = s.account) :
    ∀ (k : Nat) (s : State), s.account.overcommit = .holding →
      Moves s (shedStep short one k s) ∧ (shedStep short one k s).account = s.account
  | 0, _, _ => ⟨.refl, rfl⟩
  | k + 1, s, holds => by
    unfold shedStep
    split
    · split
      · rename_i t h
        obtain ⟨m, a⟩ := move s t holds h
        obtain ⟨ms, as⟩ := shedStep_moves move k t (by rw [a]; exact holds)
        exact ⟨.head m ms, as.trans a⟩
      · exact ⟨.refl, rfl⟩
    · exact ⟨.refl, rfl⟩

theorem shedPass_moves (s : State) (holds : s.account.overcommit = .holding) :
    Moves s (shedPass s) ∧ (shedPass s).account = s.account := by
  obtain ⟨m1, a1⟩ := shedStep_moves (short := capacityShort) (one := shedOne none)
    (fun s t h => shedOne_move h) 24 s holds
  have feeders : ∀ (l : List FeederIx) (t : State), t.account.overcommit = .holding →
      Moves t (l.foldl (fun t f => shedStep (feederShort f) (shedOne (some f)) 24 t) t) ∧
      (l.foldl (fun t f => shedStep (feederShort f) (shedOne (some f)) 24 t) t).account =
        t.account := by
    intro l
    induction l with
    | nil => exact fun t _ => ⟨.refl, rfl⟩
    | cons f l ih =>
      intro t ht
      obtain ⟨m, a⟩ := shedStep_moves (short := feederShort f) (one := shedOne (some f))
        (fun s t h => shedOne_move h) 24 t ht
      obtain ⟨ms, as⟩ := ih _ (by rw [a]; exact ht)
      exact ⟨m.trans ms, as.trans a⟩
  obtain ⟨m2, a2⟩ := feeders allFeeders _ (by rw [a1]; exact holds)
  obtain ⟨m3, a3⟩ := shedStep_moves (short := reverseShort) (one := shedReverseOne)
    (fun s t h => shedReverseOne_move h) 24 _ (by rw [a2, a1]; exact holds)
  exact ⟨(m1.trans m2).trans m3, (a3.trans a2).trans a1⟩

/-! ## Selection and grant -/

theorem selectCar_inRecall (c d : CarIx) (s : State) (h : s.role c = .parked) :
    (selectCar c s).inRecall d = s.inRecall d := by
  have hc : (selectCar c s).car d =
      (s.updCar c (fun r => { r with role := .service, powered := true })).car d := by
    simp only [selectCar, State.noticeCar_car]; rfl
  simp only [State.inRecall, State.role, hc, State.updCar_car]
  split
  · rename_i e
    subst e
    simp only [State.role] at h
    simp only [h]
    rfl
  · rfl

theorem selectCar_allowed (c : CarIx) (s : State) (h : s.role c = .parked)
    (a : selectionAllowed s = true) : selectionAllowed (selectCar c s) = true := by
  have count : (selectCar c s).recallCount = s.recallCount := by
    have : (selectCar c s).inRecall = s.inRecall := funext fun d => selectCar_inRecall c d s h
    simp only [State.recallCount, this]
  have phase : (selectCar c s).plan.phase = s.plan.phase := by simp [selectCar]
  have overcommit : (selectCar c s).account = s.account := by simp [selectCar]
  have single : (selectCar c s).singleCar = s.singleCar := by simp [selectCar, State.singleCar]
  unfold selectionAllowed at a ⊢
  rw [count, phase, overcommit, single]
  exact a

theorem trySelect_moves (c : CarIx) (s : State) (a : selectionAllowed s = true) :
    Moves s (trySelect s c) ∧ selectionAllowed (trySelect s c) = true := by
  unfold trySelect
  split
  · rename_i h
    obtain ⟨can, room, fits⟩ := h
    have parked : s.role c = .parked := by
      simp only [canSelect, Bool.and_eq_true, beq_iff_eq] at can
      exact can.1.1.1
    exact ⟨.one (.select c a can room fits), selectCar_allowed c s parked a⟩
  · exact ⟨.refl, a⟩

theorem selectionRun_moves (s : State) : Moves s (selectionRun s) := by
  have run : ∀ (l : List CarIx) (t : State), selectionAllowed t = true →
      Moves t (l.foldl trySelect t) := by
    intro l
    induction l with
    | nil => exact fun t _ => .refl
    | cons c l ih =>
      intro t a
      obtain ⟨m, a'⟩ := trySelect_moves c t a
      exact m.trans (ih _ a')
  unfold selectionRun
  split
  · exact run _ s ‹_›
  · exact .refl

theorem grantRule_moves (s : State) : Moves s (grantRule s) := by
  have car : s.gate.state = .opened → Moves s (carGrantRule s) := by
    intro opened
    unfold carGrantRule
    split
    · rename_i allowed
      split
      · rename_i c found
        exact .one (.carGrant c opened allowed (List.mem_of_find?_eq_some found)
          (List.find?_some found))
      · exact .refl
    · exact .refl
  unfold grantRule
  split
  · rename_i opened
    split
    · rename_i e claim
      split
      · rename_i window
        exact .one (.panelGrant e opened claim (Option.isNone_iff_eq_none.mp window))
      · exact car opened
    · exact car opened
  · exact .refl

theorem grantIfDue_moves (s0 s : State) : Moves s (grantIfDue s0 s) := by
  unfold grantIfDue
  split
  · exact grantRule_moves s
  · exact .refl

/-- Either of two orders, with a free value drawn or none, is one of the two. -/
theorem eitherOrder_cases (a b : State) :
    ∃ n, eitherOrder a b = { a with freeIx := n } ∨ eitherOrder a b = { b with freeIx := n } := by
  unfold eitherOrder
  split
  · exact ⟨a.freeIx, .inl rfl⟩
  · extract_lets ix
    refine ⟨ix + 1, ?_⟩
    split
    · exact .inl rfl
    · exact .inr rfl

theorem eitherOrder_moves {s a b : State} (ha : Moves s a) (hb : Moves s b) :
    Moves s (eitherOrder a b) := by
  obtain ⟨n, h | h⟩ := eitherOrder_cases a b
  · rw [h]; exact ha.tail (.draw n)
  · rw [h]; exact hb.tail (.draw n)

theorem selectAndGrant_moves (k : Cause) (s0 s : State) : Moves s (selectAndGrant k s0 s) := by
  unfold selectAndGrant
  split
  · exact eitherOrder_moves ((selectionRun_moves s).trans (grantIfDue_moves s0 _))
      (((grantIfDue_moves s0 s).trans (selectionRun_moves _)).trans (grantIfDue_moves s0 _))
  · exact grantIfDue_moves s0 s

/-! ## The whole -/

theorem recheckIfDue_moves (s0 s : State) : Moves s (recheckIfDue s0 s) := by
  unfold recheckIfDue
  split
  · exact recheck_moves s
  · exact .refl

theorem shedIfDue_moves (k : Cause) (s0 s : State) : Moves s (shedIfDue k s0 s) := by
  unfold shedIfDue
  split
  · rename_i h
    exact ((shedPass_moves s h.1).1.trans (advancePlan_moves s0 _)).trans (evaluate_moves _)
  · exact .refl

/-- Closing an event is a chain of moves, whatever began it. -/
theorem closeEvent_moves (k : Cause) (s0 s : State) : Moves s (closeEvent k s0 s) :=
  ((((advancePlan_moves s0 s).trans (evaluate_moves _)).trans (recheckIfDue_moves s0 _)).trans
    (shedIfDue_moves k s0 _)).trans (selectAndGrant_moves k s0 _)

end Sys2Proof.Machine
end

