-- ==== Sys2Proof/Laws/Frames.lean ====
section
/-!
SUPPORT. What the closing of an event leaves alone: every input of a master, every figure of a trip, the
store, the links and the clock; and notices are only ever added.
-/

namespace Sys2Proof.Machine

theorem noticesKept_refl (a : BitVec 16) : noticesKept a a := by simp [noticesKept]

theorem noticesKept_or {a b : BitVec 16} (x : BitVec 16) (h : noticesKept a b) :
    noticesKept a (b ||| x) := by
  unfold noticesKept at *
  ext i hi
  have := congrArg (fun v => v.getLsbD i) h
  simp only [BitVec.getLsbD_and] at this
  simp only [BitVec.getElem_and, BitVec.getElem_or]
  simp only [BitVec.getLsbD_eq_getElem hi] at this
  cases ha : a[i] <;> cases hb : b[i] <;> simp_all

namespace OnlyDecisions

theorem refl (s : State) : OnlyDecisions s s :=
  ⟨rfl, rfl, rfl, rfl, ⟨rfl, rfl⟩, rfl, rfl, rfl, fun _ => rfl, fun _ => rfl, fun _ => rfl,
    fun _ => noticesKept_refl _⟩

theorem trans {s t u : State} (h : OnlyDecisions s t) (k : OnlyDecisions t u) :
    OnlyDecisions s u where
  store := k.store.trans h.store
  supplyLink := k.supplyLink.trans h.supplyLink
  panelLink := k.panelLink.trans h.panelLink
  limits := k.limits.trans h.limits
  mode := ⟨k.mode.1.trans h.mode.1, k.mode.2.trans h.mode.2⟩
  rstLow := k.rstLow.trans h.rstLow
  now := k.now.trans h.now
  pending := k.pending.trans h.pending
  cars c := (k.cars c).trans (h.cars c)
  figures c := (k.figures c).trans (h.figures c)
  framing p := (k.framing p).trans (h.framing p)
  notices p := by
    have a := h.notices p
    have b := k.notices p
    unfold noticesKept at *
    calc (s.port p).notices &&& (u.port p).notices
        = ((s.port p).notices &&& (t.port p).notices) &&& (u.port p).notices := by rw [a]
      _ = (s.port p).notices &&& ((t.port p).notices &&& (u.port p).notices) :=
        BitVec.and_assoc ..
      _ = (s.port p).notices := by rw [b, a]

/-- Parts that hold no input may change freely. -/
theorem parts {s t : State} (cars : t.cars = s.cars) (ports : t.ports = s.ports)
    (store : t.store = s.store) (supply : t.supplyLink = s.supplyLink)
    (panel : t.panelLink = s.panelLink) (limits : t.account.limits = s.account.limits)
    (mode : t.plan.mode = s.plan.mode) (manual : t.plan.manualList = s.plan.manualList)
    (rst : t.rstLow = s.rstLow) (now : t.now = s.now) (pending : t.pending = s.pending) :
    OnlyDecisions s t where
  store := store
  supplyLink := supply
  panelLink := panel
  limits := limits
  mode := ⟨mode, manual⟩
  rstLow := rst
  now := now
  pending := pending
  cars c := by simp only [State.car, cars]
  figures c := by simp only [State.trip, State.car, cars]
  framing p := by simp only [State.port, ports]
  notices p := by
    have : t.port p = s.port p := by simp only [State.port, ports]
    rw [this]; exact noticesKept_refl _

theorem updCar (s : State) (c : CarIx) (f : CarRecord → CarRecord)
    (inputs : ∀ r, (f r).inputs = r.inputs) (figures : ∀ r, (f r).trip.figures = r.trip.figures) :
    OnlyDecisions s (s.updCar c f) where
  store := rfl
  supplyLink := rfl
  panelLink := rfl
  limits := rfl
  mode := ⟨rfl, rfl⟩
  rstLow := rfl
  now := rfl
  pending := rfl
  cars d := by rw [State.updCar_car]; split <;> simp [inputs]
  figures d := by simp only [State.trip, State.updCar_car]; split <;> simp [figures]
  framing _ := rfl
  notices _ := noticesKept_refl _

theorem setNotice (s : State) (p : Port) (n : Nat) : OnlyDecisions s (s.setNotice p n) where
  store := rfl
  supplyLink := rfl
  panelLink := rfl
  limits := rfl
  mode := ⟨rfl, rfl⟩
  rstLow := rfl
  now := rfl
  pending := rfl
  cars _ := rfl
  figures _ := rfl
  framing q := by
    simp only [State.setNotice, State.updPort_port]; split <;> rfl
  notices q := by
    simp only [State.setNotice, State.updPort_port]
    split
    · exact noticesKept_or _ (noticesKept_refl _)
    · exact noticesKept_refl _

theorem noticeCar (s : State) (c : CarIx) (k : CarNotice) : OnlyDecisions s (s.noticeCar c k) := by
  rcases s.noticeCar_eq c k with h | h <;> rw [h]
  · exact refl s
  · exact setNotice ..

theorem noticeCars (s : State) (k : CarNotice) : OnlyDecisions s (s.noticeCars k) := by
  suffices ∀ (l : List CarIx) (t : State),
      OnlyDecisions t (l.foldl (fun t c => t.noticeCar c k) t) from this _ s
  intro l
  induction l with
  | nil => exact refl
  | cons c l ih => exact fun t => (noticeCar t c k).trans (ih _)

/-! The same, after changes already made. -/

theorem thenParts {s t u : State} (h : OnlyDecisions s t) (cars : u.cars = t.cars)
    (ports : u.ports = t.ports) (store : u.store = t.store) (supply : u.supplyLink = t.supplyLink)
    (panel : u.panelLink = t.panelLink) (limits : u.account.limits = t.account.limits)
    (mode : u.plan.mode = t.plan.mode) (manual : u.plan.manualList = t.plan.manualList)
    (rst : u.rstLow = t.rstLow) (now : u.now = t.now) (pending : u.pending = t.pending) :
    OnlyDecisions s u :=
  h.trans (parts cars ports store supply panel limits mode manual rst now pending)

theorem thenUpdCar {s t : State} {c : CarIx} {f : CarRecord → CarRecord} (h : OnlyDecisions s t)
    (inputs : ∀ r, (f r).inputs = r.inputs) (figures : ∀ r, (f r).trip.figures = r.trip.figures) :
    OnlyDecisions s (t.updCar c f) := h.trans (updCar t c f inputs figures)

theorem thenUpdTrip {s t : State} {c : CarIx} {f : Trip → Trip} (h : OnlyDecisions s t)
    (figures : ∀ x, (f x).figures = x.figures) : OnlyDecisions s (t.updTrip c f) :=
  h.trans (updCar t c _ (fun _ => rfl) (fun r => figures r.trip))

theorem thenCar {s t : State} {c : CarIx} {k : CarNotice} (h : OnlyDecisions s t) :
    OnlyDecisions s (t.noticeCar c k) := h.trans (noticeCar t c k)

theorem thenSupply {s t : State} {k : SupplyNotice} (h : OnlyDecisions s t) :
    OnlyDecisions s (t.noticeSupply k) := h.trans (setNotice t _ _)

theorem thenPanel {s t : State} {k : PanelNotice} (h : OnlyDecisions s t) :
    OnlyDecisions s (t.noticePanel k) := h.trans (setNotice t _ _)

theorem thenCars {s t : State} {k : CarNotice} (h : OnlyDecisions s t) :
    OnlyDecisions s (t.noticeCars k) := h.trans (noticeCars t k)

end OnlyDecisions

/-! ## The operations an event closes with -/

theorem leavePlan_only {s t : State} (h : OnlyDecisions s t) (c : CarIx) :
    OnlyDecisions s (leavePlan c t) := by
  have hu : OnlyDecisions s (t.updCar c (fun r => { r with recallTimer := none, slotStart := none })) :=
    h.thenUpdCar (fun _ => rfl) (fun _ => rfl)
  exact hu.thenParts rfl rfl rfl rfl rfl rfl rfl rfl rfl rfl rfl

theorem park_only {s t : State} (h : OnlyDecisions s t) (c : CarIx) :
    OnlyDecisions s (park c t) := by
  refine leavePlan_only (OnlyDecisions.thenUpdCar h ?_ ?_) c <;> exact fun _ => rfl

theorem setEntries_only {s t : State} (h : OnlyDecisions s t) (l : List CarIx) :
    OnlyDecisions s (setEntries l t) := by
  unfold setEntries
  extract_lets q
  split
  · exact h.thenParts rfl rfl rfl rfl rfl rfl rfl rfl rfl rfl rfl
  · split <;> exact h.thenParts rfl rfl rfl rfl rfl rfl rfl rfl rfl rfl rfl

theorem removeEntry_only {s t : State} (h : OnlyDecisions s t) (c : CarIx) :
    OnlyDecisions s (removeEntry c t) := setEntries_only h _

theorem dropEntry_only {s t : State} (h : OnlyDecisions s t) (c : CarIx) (r : DropReason) :
    OnlyDecisions s (dropEntry c r t) := by
  unfold dropEntry
  split
  · refine OnlyDecisions.thenCar (OnlyDecisions.thenUpdTrip (removeEntry_only h c) ?_)
    exact fun _ => rfl
  · exact h

theorem callCar_only {s t : State} (h : OnlyDecisions s t) (c : CarIx) :
    OnlyDecisions s (callCar c t) := by
  unfold callCar
  split
  · exact park_only h c
  · refine OnlyDecisions.thenCar (OnlyDecisions.thenUpdCar h ?_ ?_) <;> exact fun _ => rfl

theorem enterPhase_only {s t : State} (h : OnlyDecisions s t) (p : Phase) :
    OnlyDecisions s (enterPhase p t) := by
  have hu : OnlyDecisions s { t with plan := { t.plan with phase := p } } :=
    h.thenParts rfl rfl rfl rfl rfl rfl rfl rfl rfl rfl rfl
  unfold enterPhase
  exact OnlyDecisions.thenCars (OnlyDecisions.thenPanel (OnlyDecisions.thenSupply hu))

theorem endRecall_only {s t : State} (h : OnlyDecisions s t) : OnlyDecisions s (endRecall t) := by
  have hu : OnlyDecisions s { t with plan := { t.plan with recallDone := true } } :=
    h.thenParts rfl rfl rfl rfl rfl rfl rfl rfl rfl rfl rfl
  unfold endRecall
  exact OnlyDecisions.thenPanel (enterPhase_only hu .service)

theorem overcommitBegins_only {s t : State} (h : OnlyDecisions s t) :
    OnlyDecisions s (overcommitBegins t) := by
  unfold overcommitBegins
  refine OnlyDecisions.thenPanel (OnlyDecisions.thenSupply ?_)
  exact h.thenParts rfl rfl rfl rfl rfl rfl rfl rfl rfl rfl rfl

theorem overcommitEnds_only {s t : State} (h : OnlyDecisions s t) :
    OnlyDecisions s (overcommitEnds t) := by
  have hu : OnlyDecisions s { t with account := { t.account with overcommit := .none } } :=
    h.thenParts rfl rfl rfl rfl rfl rfl rfl rfl rfl rfl rfl
  exact (OnlyDecisions.thenPanel (OnlyDecisions.thenSupply hu)).thenParts
    rfl rfl rfl rfl rfl rfl rfl rfl rfl rfl rfl

theorem deselect_only {s t : State} (h : OnlyDecisions s t) (c : CarIx) :
    OnlyDecisions s (deselect c t) := by
  unfold deselect
  refine OnlyDecisions.thenCar (OnlyDecisions.thenUpdCar
    (park_only (dropEntry_only h c .role) c) ?_ ?_) <;> exact fun _ => rfl

theorem orderToLand_only {s t : State} (h : OnlyDecisions s t) (c : CarIx) (k : VictimKind)
    (n : Nat) : OnlyDecisions s (orderToLand c k n t) := by
  unfold orderToLand
  extract_lets u
  have hu : OnlyDecisions s u := by
    refine OnlyDecisions.thenCar (OnlyDecisions.thenUpdTrip h ?_)
    exact fun _ => rfl
  exact hu.thenParts rfl rfl rfl rfl rfl rfl rfl rfl rfl rfl rfl

theorem selectCar_only {s t : State} (h : OnlyDecisions s t) (c : CarIx) :
    OnlyDecisions s (selectCar c t) := by
  unfold selectCar
  extract_lets u
  have hu : OnlyDecisions s u := by
    refine OnlyDecisions.thenUpdCar h ?_ ?_ <;> exact fun _ => rfl
  refine OnlyDecisions.thenCar ?_
  exact hu.thenParts rfl rfl rfl rfl rfl rfl rfl rfl rfl rfl rfl

theorem carGrant_only {s t : State} (h : OnlyDecisions s t) (c : CarIx) :
    OnlyDecisions s (carGrant c t) := by
  unfold carGrant
  extract_lets u v
  have hv : OnlyDecisions s v := by
    refine removeEntry_only (OnlyDecisions.thenUpdCar h ?_ ?_) c <;> exact fun _ => rfl
  refine OnlyDecisions.thenCar ?_
  exact hv.thenParts rfl rfl rfl rfl rfl rfl rfl rfl rfl rfl rfl

theorem panelGrant_only {s t : State} (h : OnlyDecisions s t) (e : EntryIx) :
    OnlyDecisions s (panelGrant e t) := by
  unfold panelGrant
  refine OnlyDecisions.thenPanel ?_
  exact h.thenParts rfl rfl rfl rfl rfl rfl rfl rfl rfl rfl rfl

/-- One move of a closing event touches no input. -/
theorem Move.only {s t : State} (m : Move s t) : OnlyDecisions s t := by
  have start : OnlyDecisions s s := .refl s
  cases m with
  | call e rest list can =>
    refine callCar_only ?_ e.car
    exact start.thenParts rfl rfl rfl rfl rfl rfl rfl rfl rfl rfl rfl
  | endRecall => exact endRecall_only start
  | overcommitBegins => exact overcommitBegins_only start
  | overcommitEnds => exact overcommitEnds_only start
  | drop c r => exact dropEntry_only start c r
  | deselect c => exact deselect_only start c
  | land c => exact orderToLand_only start c _ _
  | landReverse c => exact orderToLand_only start c _ _
  | select c => exact selectCar_only start c
  | carGrant c => exact carGrant_only start c
  | panelGrant e => exact panelGrant_only start e
  | draw n => exact start.thenParts rfl rfl rfl rfl rfl rfl rfl rfl rfl rfl rfl

/-- A chain of moves touches no input. -/
theorem Moves.only {s t : State} (h : Moves s t) : OnlyDecisions s t := by
  induction h with
  | refl => exact .refl s
  | tail _ m ih => exact ih.trans m.only

/-- Closing an event touches no input of any master. -/
theorem closeEvent_only (k : Cause) (s0 s : State) : OnlyDecisions s (closeEvent k s0 s) :=
  (closeEvent_moves k s0 s).only

end Sys2Proof.Machine
end

