-- ==== Sys2Proof/Laws/Lines.lean ====
section
/-!
SUPPORT. What the lines of a port do, said once: a whole unit is its opcode or argument unit on a port whose
nine bits have gone out, a cut unit only shifts, and a port that takes no unit takes no bit.
-/

namespace Sys2Proof.Machine

/-- Nine bits read back as the data they carry. -/
theorem unitData_unitBits (kind : Bool) (data : Byte) : unitData (unitBits kind data) = data := by
  have : ∀ d : Byte, unitData (unitBits kind d) = d := by cases kind <;> decide
  exact this data

theorem unitBits_length (kind : Bool) (data : Byte) : (unitBits kind data).length = 9 := rfl

/-- Changing a port a second time replaces the first change. -/
theorem State.updPort_updPort (s : State) (p : Port) (f g : PortIf → PortIf) :
    (s.updPort p f).updPort p g = s.updPort p (fun i => g (f i)) := by
  simp [State.updPort, State.port]

/-- Whether a port takes units does not depend on what is being shifted. -/
theorem ignores_updPort (s : State) (p : Port) (f : PortIf → PortIf)
    (h : (f (s.port p)).awaitSelect = (s.port p).awaitSelect) :
    ignores (s.updPort p f) p = ignores s p := by
  unfold ignores
  rw [State.updPort_port_same, h]
  cases p <;> rfl

/-- A port that takes no unit takes no bit. -/
theorem foldl_clockBit_ignored {s : State} {p : Port} (h : ignores s p = true) (bits : List Bool) :
    bits.foldl (clockBit p) s = s := by
  induction bits with
  | nil => rfl
  | cons b l ih => rw [List.foldl_cons, clockBit, if_pos h, ih]

/-- The first bits of a unit, fewer than nine, are sampled and nothing else happens. -/
theorem foldl_clockBit_partial {s : State} {p : Port} (h : ignores s p = false) (bits : List Bool)
    (short : (s.port p).shiftIn.length + bits.length ≤ 8) :
    bits.foldl (clockBit p) s = s.updPort p (fun i => bits.foldl (fun i b => i.sample b) i) := by
  induction bits generalizing s with
  | nil => simp [State.updPort, State.port]
  | cons b l ih =>
    simp only [List.length_cons] at short
    have count : ((s.port p).sample b).bitCount = (s.port p).shiftIn.length + 1 := by
      simp [PortIf.sample, PortIf.bitCount]
    have one : clockBit p s b = s.updPort p (fun i => i.sample b) := by
      have low : ((s.port p).sample b).bitCount < 9 := by omega
      unfold clockBit
      rw [if_neg (by simp [h])]
      simp only [if_pos low]
      rfl
    rw [List.foldl_cons, one, ih, State.updPort_updPort]
    · rfl
    · rw [ignores_updPort _ _ _ rfl]; exact h
    · rw [State.updPort_port_same]
      simp only [PortIf.sample, List.length_append, List.length_cons, List.length_nil]
      omega

/-- What sampling the rest of a unit leaves, once its kind bit is in: the data going out stay as chosen. -/
theorem foldl_sample (i : PortIf) (bits : List Bool) (h : i.shiftIn ≠ [])
    (out : i.shiftOut = (unitBits true i.sending).take i.shiftIn.length) :
    bits.foldl (fun i b => i.sample b) i =
      { i with shiftIn := i.shiftIn ++ bits,
               shiftOut := (unitBits true i.sending).take (i.shiftIn.length + bits.length) } := by
  induction bits generalizing i with
  | nil => simp [← out]
  | cons b l ih =>
    rw [List.foldl_cons, ih]
    · simp [PortIf.sample, h, Nat.add_assoc, Nat.add_comm 1]
    · simp [PortIf.sample]
    · simp [PortIf.sample]

/-- The bits of a unit up to the ninth, sampled on a port between units. -/
theorem foldl_sample_unit (i : PortIf) (kind : Bool) (bits : List Bool) (h : i.shiftIn = []) :
    (kind :: bits).foldl (fun i b => i.sample b) i =
      { i with shiftIn := kind :: bits, sending := i.dataFor kind,
               shiftOut := (unitBits true (i.dataFor kind)).take (1 + bits.length) } := by
  rw [List.foldl_cons, foldl_sample]
  · simp [PortIf.sample, h]
  · simp [PortIf.sample]
  · simp [PortIf.sample, h]

/-- A whole unit on a port that takes units: nine bits go out, beginning with a 1, and the unit is handed on
as its kind says (R135, R136). -/
theorem shiftUnit_eq {s : State} {p : Port} (h : ignores s p = false) (kind : Bool) (data : Byte) :
    shiftUnit p kind data s =
      (if kind then argUnit p data else opcodeUnit p data)
        (s.updPort p (fun i => i.carried (i.dataFor kind))) := by
  obtain ⟨first, last, cut, few⟩ : ∃ first last, unitBits kind data = (kind :: first) ++ [last] ∧
      first.length = 7 := ⟨[_, _, _, _, _, _, _], _, rfl, rfl⟩
  have begun : ignores (beginUnit p s) p = false := by
    rw [beginUnit, ignores_updPort _ _ _ rfl]; exact h
  rw [shiftUnit, cut, List.foldl_append, foldl_clockBit_partial begun]
  swap
  · rw [beginUnit, State.updPort_port_same]; simp [few]
  rw [beginUnit, State.updPort_updPort]
  rw [List.foldl_cons, List.foldl_nil, clockBit, ignores_updPort, if_neg (by simp [h])]
  swap
  · rw [foldl_sample_unit _ _ _ rfl]
  simp only [State.updPort_port_same]
  rw [foldl_sample_unit _ _ _ rfl]
  have whole : (kind :: first) ++ [last] = unitBits kind data := cut.symm
  simp only [PortIf.sample, PortIf.bitCount, whole, List.cons_ne_nil, if_false, State.updPort_updPort,
    unitBits_length, unitData_unitBits]
  have kindBit : (unitBits kind data).headD true = kind := rfl
  rw [kindBit]
  cases kind <;> exact congrArg _ (by simp [State.updPort, PortIf.carried, PortIf.dataFor, unitBits])

/-- A unit on a port that takes none only lowers SELn. -/
theorem shiftUnit_ignored {s : State} {p : Port} (h : ignores s p = true) (kind : Bool) (data : Byte) :
    shiftUnit p kind data s = beginUnit p s := by
  rw [shiftUnit, foldl_clockBit_ignored]
  rw [beginUnit, ignores_updPort _ _ _ rfl]; exact h

/-- A cut unit on a port that takes units: its bits are gone, as many have gone out, and nothing else
happens (R135, R136). -/
theorem cutUnit_eq {s : State} {p : Port} (h : ignores s p = false) {bits : List Bool}
    (short : bits.length ≤ 8) : cutUnit p bits s = s.updPort p (.cut bits) := by
  rw [cutUnit, foldl_clockBit_partial]
  · rw [beginUnit, riseSel, State.updPort_updPort, State.updPort_updPort]
    congr 1
    funext i
    cases bits with
    | nil => rfl
    | cons kind l =>
      rw [foldl_sample_unit _ _ _ rfl]
      simp [PortIf.cut, PortIf.dataFor, Nat.add_comm 1]
  · rw [beginUnit, ignores_updPort _ _ _ rfl]; exact h
  · rw [beginUnit, State.updPort_port_same]; simpa using short

/-- A cut unit on a port that takes none only raises SELn, and a wait for the next select is over. -/
theorem cutUnit_ignored {s : State} {p : Port} (h : ignores s p = true) (bits : List Bool) :
    cutUnit p bits s = s.updPort p (.cut []) := by
  rw [cutUnit, foldl_clockBit_ignored, beginUnit, riseSel, State.updPort_updPort]
  · rfl
  · rw [beginUnit, ignores_updPort _ _ _ rfl]; exact h

end Sys2Proof.Machine
end

