-- ==== Sys2Proof/Laws/Store.lean ====
section
/-!
SUPPORT. What is known of a store whatever word its check is: one just written matches, one whose write was
cut does not; and so what the state after reset holds.
-/

namespace Sys2Proof.Machine

/-- The image and the word formed over it match. -/
theorem NvStore.formed_matching (t : Image) : (NvStore.formed t).matching = true := by
  simp [NvStore.matching, NvStore.formed]

/-- A spoiled store does not match, whatever its word. -/
theorem NvStore.spoiled_matching (t : Image) (w : BitVec 16) : (NvStore.spoiled t w).matching = false := by
  have differs : ∀ x : BitVec 16, ~~~x ≠ x := by
    intro x e
    have : (~~~x).getLsbD 0 = x.getLsbD 0 := by rw [e]
    rw [BitVec.getLsbD_not] at this
    simp at this
  simp only [NvStore.matching, NvStore.spoiled, beq_eq_false_iff_ne]
  split
  · rename_i h; rw [h]; exact differs _
  · assumption

/-- A store that does not match is not usable, whatever the straps. -/
theorem NvStore.spoiled_usable (t : Image) (w : BitVec 16) (carsel : BitVec 2) :
    (NvStore.spoiled t w).usable carsel = false := by
  rw [NvStore.usable, NvStore.spoiled_matching, Bool.false_and]

/-- Each unit of a torn image is the new one or the earlier one (R157). -/
theorem tornImage_unit (new old : Image) (k : Nat) (i : Fin 35) :
    (tornImage new old k)[i] = new[i] ∨ (tornImage new old k)[i] = old[i] := by
  simp only [tornImage, Fin.getElem_fin, Vector.getElem_ofFn]
  split
  · exact .inl rfl
  · exact .inr rfl

/-! ## The state after reset: its blank store brings the single-car defaults and SITE_INVALID (R160) -/

theorem State.reset_store : State.reset.store =
    { active := defaultImage 12, site := .default, state := .idle, writing := none, programTimer := none,
      nv := .blank, carsel := 0, single := false } := by
  simp only [State.reset, State.released, Store.atRelease, NvStore.blank, NvStore.spoiled_usable]
  rfl

theorem State.reset_ports : State.reset.ports = (Vector.replicate 14 PortIf.atReset).set 13
    { PortIf.atReset with notices := noticeBit PanelNotice.siteInvalid.number } := by
  simp only [State.reset, State.released, NvStore.blank, NvStore.spoiled_usable]
  decide

theorem State.reset_cars : State.reset.cars = .replicate 12 (.atReset .free) := by
  simp only [State.reset, State.released, Store.atRelease, NvStore.blank, NvStore.spoiled_usable]
  decide

end Sys2Proof.Machine
end

