-- ==== Sys2Proof/Tests/Slice0.lean ====
section
/-!
SUPPORT. Our own tests: ill-formed commands, worked figures of the spec, one or two small facts for each
command, and for every statement with hypotheses a state and operands that meet them. Expected values come
from the spec's tables and worked examples, named in each comment.
-/

namespace Sys2Proof.Tests

open Sys2Proof.Machine

/-! ## Small states -/

/-- The tower of section 10.1, four cars, with bypass on, Krec 1, Nsel 2 and m 1. -/
def labTable : Image :=
  #v[1, 4, 0x10, 0x30, 0x31, 0x31, 0, 0, 0, 0, 0, 0, 0, 0,
    0, 0x01, 0x90, 0x02, 0xBC, 0, 0, 0, 0, 1, 2, 1,
    0x29, 0x24, 0x27, 0x41, 0x60, 0x22, 0x61, 0x2E, 1]

/-- The profile of section 1.7.1. -/
def labProfile : Profile := { pr := 75, b := 45, f := 20, a := 6, g := 12, tland := 80, trun := 900 }

/-- A car that has been heard, included and available, in a role. -/
def labCar (role : Role) : CarRecord :=
  { CarRecord.atReset role with
    link := .up, linkTimer := some ⟨0, 30⟩, profile := labProfile, available := true }

/-- Car 0: a service car running up with 80 % load (section 1.7.1). -/
def car0 : CarRecord :=
  { labCar .service with
    powered := true
    trip := { Trip.atReset with
      state := .running, purpose := some .service, load := 80, s := 145, n := 58, stamp := some 1,
      verdict := .granted } }

/-- Car 1: called for recall, its trip waiting. -/
def car1 : CarRecord :=
  { labCar .recall with
    slotStart := some 0, recallTimer := some ⟨0, 3600⟩
    trip := { Trip.atReset with
      state := .waiting, purpose := some .recall, direction := .down, load := 45, s := 25, n := 10,
      stamp := some 2 } }

/-- Car 3: a service car lost while it ran down and regenerated. -/
def car3 : CarRecord :=
  { labCar .lost with
    link := .lost, linkTimer := none, powered := true, preLoss := some .service
    trip := { Trip.atReset with
      state := .running, purpose := some .service, direction := .down, load := 110, kind := .regen,
      s := 25, ret := 28, stamp := some 0, verdict := .granted } }

/-- A tower in service: car 0 runs, car 1 waits in recall, car 2 is held in the list, car 3 is lost, and the
gate recovers. -/
def lab : State :=
  { State.reset with
    cars := #v[car0, car1, labCar .held, car3, .atReset .absent, .atReset .absent, .atReset .absent,
      .atReset .absent, .atReset .absent, .atReset .absent, .atReset .absent, .atReset .absent]
    supplyLink := ⟨.up, some ⟨0, 30⟩⟩
    panelLink := ⟨.up, some ⟨0, 30⟩⟩
    account := { Account.atReset with
      offer := 900, stepLimit := 450, absorb := 30,
      reserves := #v[some 250, none, none, none, none, none, none, none] }
    gate := { Gate.atReset with
      state := .recovery, recoveryTimer := some ⟨0, 50⟩, stack := [3, 0] }
    queue := { entries := [1], headTimer := some ⟨0, 600⟩, headAged := false, nextStamp := 3 }
    plan := { Plan.atReset with
      phase := .service, recallDone := true, recallList := [⟨2, 1⟩], serviceOrder := [3, 0] }
    store := {
      active := labTable, site := .valid, state := .idle, writing := none, programTimer := none,
      nv := ⟨zeroImage, 0⟩, carsel := 3, single := false }
    ports := .replicate 14 .atReset
    now := 10
    pending := [.offer] }

/-- The same tower with car 1's trip ended and the queue empty. -/
def labIdle : State :=
  { lab with
    cars := lab.cars.set 1 { car1 with trip := { car1.trip with state := .none } }
    queue := { lab.queue with entries := [], headTimer := none } }

/-- The same with the gate OPEN. -/
def labOpen : State := { labIdle with gate := { Gate.atReset with state := .opened, stack := [3, 0] } }

/-- The tower with car 0 still starting and holding the gate. -/
def labStart : State :=
  { lab with
    cars := lab.cars.set 0 { car0 with trip := { car0.trip with state := .starting } }
    gate := { Gate.atReset with
      state := .carStart, holder := .car 0, startTimer := some ⟨5, 80⟩, stack := [3, 0] } }

/-- The tower with the panel holding the gate on reserve entry 0. -/
def labPanel : State :=
  { lab with gate := { Gate.atReset with
      state := .panelStart, holder := .panel, panelTimer := some ⟨5, 200⟩, heldClaim := some 0,
      stack := [3, 0] } }

/-- The tower in RETURN, waiting for the two trips. -/
def labReturn : State :=
  { labIdle with plan := { labIdle.plan with phase := .returning, returnTimer := some ⟨5, 1200⟩ } }

/-- The tower in OUTAGE with the settle timer running: car 0 HELD, cars 1 and 2 HELD, car 3 LOST. -/
def labOutage : State :=
  { lab with
    cars := #v[labCar .held, labCar .held, { labCar .held with position := .atRecall },
      { labCar .lost with link := .lost, linkTimer := none, preLoss := some .held },
      .atReset .absent, .atReset .absent, .atReset .absent, .atReset .absent, .atReset .absent,
      .atReset .absent, .atReset .absent, .atReset .absent]
    gate := .atReset
    queue := .atReset
    plan := { Plan.atReset with phase := .outage, settleTimer := some ⟨0, 100⟩ } }

/-- The tower on mains. -/
def labMains : State :=
  { lab with
    cars := #v[labCar .free, labCar .free, labCar .free,
      { labCar .lost with link := .lost, linkTimer := none },
      .atReset .absent, .atReset .absent, .atReset .absent, .atReset .absent, .atReset .absent,
      .atReset .absent, .atReset .absent, .atReset .absent]
    gate := .atReset
    queue := .atReset
    plan := { Plan.atReset with phase := .mains } }

/-- The tower on mains while the Site Store programs the same table. -/
def labWriting : State :=
  { labMains with store := { labMains.store with
      state := .programming, writing := some labTable, programTimer := some ⟨10, 1⟩ } }

/-- A part strapped for 6 cars that has heard nothing, with the single-car defaults. -/
def labFresh : State :=
  { State.reset with
    cars := carsAtReset (defaultImage 6)
    ports := .replicate 14 .atReset
    store := { lab.store with active := defaultImage 6, site := .default, carsel := 2 } }

/-- The tower in an overcommit after the offer fell to 300 kW, car 0 ordered to land (R126). -/
def labShed : State :=
  { lab with
    cars := lab.cars.set 0 { car0 with trip := { car0.trip with shedOrdered := true } }
    account := { lab.account with offer := 300, overcommit := .holding }
    shed := { state := .active, victims :=
      [{ car := 0, kind := .capacity, relief := 58, feeder := 0, standing := .counting,
         timer := some ⟨0, 320⟩ }] } }

/-- What holds of the state a command leaves. -/
def after (i : Instr) (s : State) (p : State → Bool) : Bool :=
  match exec i s with
  | .next t => p t
  | .fault _ => false
  | .refused _ => false

/-! ## The small states are sound -/

/-- A state whose cars have one of the two profiles of these tests is in range when its trips and its
account are. -/
theorem inRange_of {s : State} (profiles : ∀ c, (s.car c).profile = labProfile ∨ (s.car c).profile = .atReset)
    (trips : ∀ c, (s.trip c).InRange) (account : s.account.InRange) : s.InRange where
  profile c := by rcases profiles c with h | h <;> rw [h] <;> constructor <;> decide
  trip := trips
  account := account

/-- A state whose fourteen ports are as after reset has sound ports. -/
theorem portsSound_of {s : State} (h : s.ports = .replicate 14 .atReset) : s.PortsSound := by
  have idle : ∀ p, s.port p = .atReset := fun p => by simp [State.port, h]
  constructor <;> intro p <;> rw [idle p]
  · rfl
  · exact ⟨0, rfl⟩
  all_goals simp [PortIf.atReset]

theorem lab_settled : lab.Settled := by constructor <;> decide

theorem lab_consistent : lab.Consistent := by constructor <;> decide

theorem labIdle_settled : labIdle.Settled := by constructor <;> decide

theorem labIdle_consistent : labIdle.Consistent := by constructor <;> decide

theorem labOpen_settled : labOpen.Settled := by constructor <;> decide

theorem labOpen_consistent : labOpen.Consistent := by constructor <;> decide

theorem labMains_settled : labMains.Settled := by constructor <;> decide

theorem labMains_consistent : labMains.Consistent := by constructor <;> decide

theorem labShed_settled : labShed.Settled := by constructor <;> decide

theorem labShed_consistent : labShed.Consistent := by constructor <;> decide

theorem labStart_settled : labStart.Settled := by constructor <;> decide

theorem labStart_consistent : labStart.Consistent := by constructor <;> decide

theorem labPanel_settled : labPanel.Settled := by constructor <;> decide

theorem labPanel_consistent : labPanel.Consistent := by constructor <;> decide

theorem labReturn_settled : labReturn.Settled := by constructor <;> decide

theorem labReturn_consistent : labReturn.Consistent := by constructor <;> decide

theorem labOutage_settled : labOutage.Settled := by constructor <;> decide

theorem labOutage_consistent : labOutage.Consistent := by constructor <;> decide

theorem labWriting_settled : labWriting.Settled := by constructor <;> decide

theorem labWriting_consistent : labWriting.Consistent := by constructor <;> decide

theorem lab_sound : lab.Sound where
  inRange := inRange_of (by decide) (fun c => by constructor <;> revert c <;> decide)
    (by constructor <;> decide)
  store := by constructor <;> decide
  absent := by decide
  ports := portsSound_of rfl
  consistent := lab_consistent
  settled := lab_settled
  bounded := by constructor <;> decide
  called := by constructor <;> decide
  timed := by constructor <;> decide
  records := by constructor <;> decide
  ordered := by constructor <;> decide
  victims := by constructor <;> decide

theorem labOpen_sound : labOpen.Sound where
  inRange := inRange_of (by decide) (fun c => by constructor <;> revert c <;> decide)
    (by constructor <;> decide)
  store := by constructor <;> decide
  absent := by decide
  ports := portsSound_of rfl
  consistent := labOpen_consistent
  settled := labOpen_settled
  bounded := by constructor <;> decide
  called := by constructor <;> decide
  timed := by constructor <;> decide
  records := by constructor <;> decide
  ordered := by constructor <;> decide
  victims := by constructor <;> decide

theorem labMains_sound : labMains.Sound where
  inRange := inRange_of (by decide) (fun c => by constructor <;> revert c <;> decide)
    (by constructor <;> decide)
  store := by constructor <;> decide
  absent := by decide
  ports := portsSound_of rfl
  consistent := labMains_consistent
  settled := labMains_settled
  bounded := by constructor <;> decide
  called := by constructor <;> decide
  timed := by constructor <;> decide
  records := by constructor <;> decide
  ordered := by constructor <;> decide
  victims := by constructor <;> decide

theorem labShed_sound : labShed.Sound where
  inRange := inRange_of (by decide) (fun c => by constructor <;> revert c <;> decide)
    (by constructor <;> decide)
  store := by constructor <;> decide
  absent := by decide
  ports := portsSound_of rfl
  consistent := labShed_consistent
  settled := labShed_settled
  bounded := by constructor <;> decide
  called := by constructor <;> decide
  timed := by constructor <;> decide
  records := by constructor <;> decide
  ordered := by constructor <;> decide
  victims := by constructor <;> decide

theorem labReturn_sound : labReturn.Sound where
  inRange := inRange_of (by decide) (fun c => by constructor <;> revert c <;> decide)
    (by constructor <;> decide)
  store := by constructor <;> decide
  absent := by decide
  ports := portsSound_of rfl
  consistent := labReturn_consistent
  settled := labReturn_settled
  bounded := by constructor <;> decide
  called := by constructor <;> decide
  timed := by constructor <;> decide
  records := by constructor <;> decide
  ordered := by constructor <;> decide
  victims := by constructor <;> decide

theorem labOutage_sound : labOutage.Sound where
  inRange := inRange_of (by decide) (fun c => by constructor <;> revert c <;> decide)
    (by constructor <;> decide)
  store := by constructor <;> decide
  absent := by decide
  ports := portsSound_of rfl
  consistent := labOutage_consistent
  settled := labOutage_settled
  bounded := by constructor <;> decide
  called := by constructor <;> decide
  timed := by constructor <;> decide
  records := by constructor <;> decide
  ordered := by constructor <;> decide
  victims := by constructor <;> decide

theorem labFresh_sound : labFresh.Sound where
  inRange := inRange_of (by decide) (fun c => by constructor <;> revert c <;> decide)
    (by constructor <;> decide)
  store := by constructor <;> decide
  absent := by decide
  ports := portsSound_of rfl
  consistent := by constructor <;> decide
  settled := by constructor <;> decide
  bounded := by constructor <;> decide
  called := by constructor <;> decide
  timed := by constructor <;> decide
  records := by constructor <;> decide
  ordered := by constructor <;> decide
  victims := by constructor <;> decide

/-! ## Ill-formed commands, one for each check -/

theorem test_wf_trip_units : (Instr.trip 0 (.opened [1, 80, 0])).wellFormed = false := by decide
theorem test_wf_state_resumed : (Instr.state 0 (.resumed [])).wellFormed = false := by decide
theorem test_wf_supply_units : (Instr.supply (.opened [1, 1])).wellFormed = false := by decide
theorem test_wf_reserve_units : (Instr.reserve (.opened [0, 0, 1, 2])).wellFormed = false := by decide
theorem test_wf_claim_units : (Instr.gateClaim (.resumed [0, 0])).wellFormed = false := by decide
theorem test_wf_select_units : (Instr.select (.opened [1, 0, 2])).wellFormed = false := by decide
theorem test_wf_include_units : (Instr.includeCar (.opened [1, 0, 0])).wellFormed = false := by decide
theorem test_wf_release_units : (Instr.releaseCar (.opened [1, 0])).wellFormed = false := by decide
theorem test_wf_image_units :
    (Instr.siteWrite (.opened (List.replicate 36 0))).wellFormed = false := by decide
theorem test_wf_profile_field : (Instr.profileFieldLatch 0 []).wellFormed = false := by decide
theorem test_wf_offer_field : (Instr.offerFieldLatch [0, 0, 0]).wellFormed = false := by decide
theorem test_wf_unknown_code : (Instr.unknownOpcode .panel 0x30).wellFormed = false := by decide
theorem test_wf_cut_bits : (Instr.unitCut .supply (.replicate 9 false)).wellFormed = false := by decide
theorem test_wf_good : (Instr.select (.opened [2, 0, 2])).wellFormed = true := by decide

/-- No row of the opcode table gives bits, so no word spells a command (log 21). -/
theorem test_decode_none : decodeTableWord 8 0x10 = none := by decide

/-! ## Worked figures -/

/-- The table of section 1.7.1. -/
theorem test_demand_171 :
    demandOf labProfile 1 80 = ⟨.up, 80, .motoring, 145, 58, 0⟩ ∧
    demandOf labProfile 1 10 = ⟨.up, 10, .regen, 25, 0, 28⟩ ∧
    demandOf labProfile 2 45 = ⟨.down, 45, .motoring, 25, 10, 0⟩ ∧
    demandOf labProfile 2 110 = ⟨.down, 110, .regen, 25, 0, 59⟩ := by decide

/-- Rows of section 1.7.2, and the reset profile of section 1.7.3. -/
theorem test_demand_172 :
    demandOf ⟨160, 40, 24, 10, 8, 1, 1⟩ 2 0 = ⟨.down, 0, .motoring, 381, 127, 0⟩ ∧
    demandOf ⟨160, 40, 24, 10, 8, 1, 1⟩ 1 125 = ⟨.up, 125, .motoring, 741, 247, 0⟩ ∧
    demandOf ⟨160, 40, 24, 10, 8, 1, 1⟩ 2 125 = ⟨.down, 125, .regen, 60, 0, 103⟩ ∧
    demandOf .atReset 1 100 = ⟨.up, 100, .motoring, 1800, 450, 0⟩ := by decide

/-- Section 1.7.4, and the clamped load of section 1.7.5. -/
theorem test_demand_174 :
    demandOf labProfile 3 30 = ⟨.down, 30, .motoring, 78, 31, 0⟩ ∧
    demandOf labProfile 1 200 = ⟨.up, 125, .motoring, 300, 120, 0⟩ := by decide

/-- R1's examples, and the Tfair code of section 9.3. -/
theorem test_time_codes : timeCode 0x27 = 80 ∧ timeCode 0x7F = 19200 ∧ timeCode 0x2E = 150 := by decide

/-- The rules of R155 on the tower's table, on 12 straps and on 3 of its faults. -/
theorem test_image_checks :
    validImage labTable 4 = true ∧ validImage (labTable.set 1 5) 4 = false ∧
    validImage (labTable.set 4 0x33) 4 = false ∧ validImage (labTable.set 23 0) 4 = false := by decide

/-! ## The car ports -/

/-- Section 1.7.5, row 3: an update in place. -/
theorem test_trip_updates :
    after (.trip 1 (.opened [1, 10])) lab (fun t =>
      (t.trip 1).ret == 28 && (t.trip 1).state == .waiting && (t.trip 1).stamp == some 2) = true := by
  decide +kernel

/-- R86: admission; the second half of a paused request (section 8.9, step 4). -/
theorem test_trip_admits :
    after (.trip 1 (.opened [2])) labIdle (fun s => after (.trip 1 (.resumed [45])) s (fun t =>
      t.queue.entries == [1] && (t.trip 1).s == 25 && (t.trip 1).stamp == some 3)) = true := by
  decide +kernel

/-- R91. -/
theorem test_withdraw :
    after (.withdraw 1) lab (fun t => t.queue.entries == [] && (t.trip 1).verdict == .none) = true := by
  decide

/-- R70: RUNNING, and the gate in RECOVERY. -/
theorem test_at_speed :
    after (.atSpeed 0) labStart (fun t =>
      (t.trip 0).state == .running && t.gate.state == .recovery && t.lc == 70) = true := by
  decide

/-- R71: NONE, out of the stack, and the gate in RECOVERY. -/
theorem test_start_fail :
    after (.startFail 0) labStart (fun t =>
      (t.trip 0).state == .none && t.gate.stack == [3] && t.gate.state == .recovery) = true := by
  decide

/-- R75: the car keeps its role and power, and the gate is untouched. -/
theorem test_stopped :
    after (.stopped 0) lab (fun t =>
      (t.trip 0).state == .none && t.lc == 12 && t.role 0 == .service &&
      t.gate.recoveryTimer == some ⟨0, 50⟩) = true := by
  decide

/-- R53: ignored from a LOST car. -/
theorem test_stopped_lost :
    after (.stopped 3) lab (fun t => (t.trip 3).state == .running && t.gate.stack == [3, 0]) = true := by
  decide

/-- R54: a return with STILL at a landing; the car is HELD and back in the list. -/
theorem test_state_still :
    after (.state 3 (.opened [0x99])) lab (fun t =>
      t.role 3 == .held && t.gate.stack == [0] && t.plan.recallList == [⟨2, 1⟩, ⟨3, 4⟩]) = true := by
  decide +kernel

/-- R49: motion the part did not permit. -/
theorem test_state_moving :
    after (.state 2 (.opened [0x9A])) lab (fun t =>
      t.hasNotice .panel 11 && t.hasNotice .supply 5 && t.role 2 == .held) = true := by
  decide

/-- R44: PROFILE by role. -/
theorem test_profile :
    after (.profile 0) labMains (fun t => (t.port (.car 0)).request == some ⟨.profile, []⟩) = true ∧
    after (.profile 0) lab (fun t => (t.port (.car 0)).outcome == .notPermitted) = true := by
  decide

/-- R45: a rated power of 500 is clamped to 400. -/
theorem test_profile_field :
    after (.profile 0) labMains (fun s => after (.profileFieldLatch 0 [0x01, 0xF4]) s (fun t =>
      (t.car 0).profile.pr == 400)) = true := by
  decide +kernel

/-- R150: the 14 units of READ-CAR for car 0. -/
theorem test_read_car :
    after (.readCar 0) lab (fun t => (t.port (.car 0)).reply ==
      some ⟨[4, 4, 3, 0x10, 0, 80, 0, 145, 0, 58, 0, 0, 0, 4], 0, none⟩) = true := by
  decide

/-! ## The supply port -/

/-- R98, R102: GEN_STARTING on mains. -/
theorem test_supply_starting :
    after (.supply (.opened [2])) labMains (fun t =>
      t.plan.phase == .outage && t.role 0 == .held && (t.car 3).preLoss == some .held) = true := by
  decide +kernel

/-- R103: the generator-loss path. -/
theorem test_supply_lost :
    after (.supply (.opened [5])) lab (fun t =>
      t.plan.phase == .outage && t.gate.state == .closed && t.lc == 0 &&
      (t.trip 1).verdict == .dropped .phase) = true := by
  decide +kernel

/-- R18. -/
theorem test_offer :
    after .offer lab (fun t => (t.port .supply).request == some ⟨.offer, []⟩) = true := by decide

/-- R18: an offer of 8000 kW is clamped to 4095. -/
theorem test_offer_field :
    after .offer lab (fun s => after (.offerFieldLatch [0x1F, 0x40]) s (fun t =>
      t.account.offer == 4095 && t.account.stepLimit == 450)) = true := by
  decide +kernel

/-- R92: car 1 needs 293 kW at rest (A 6 and S 25, 12 kW standing, 250 kW of reserves). -/
theorem test_offer_recheck :
    after .offer lab (fun s =>
      after (.offerFieldLatch [0x01, 0x25]) s (fun t => (t.trip 1).state == .waiting) &&
      after (.offerFieldLatch [0x01, 0x24]) s (fun t =>
        (t.trip 1).verdict == .dropped .noCapacity && t.queue.entries == [] &&
        t.hasNotice (.car 1) 4)) = true := by
  decide +kernel

/-- R118, R67: RETRANSFER brings the supply link back, and car 1 starts before the phase is RETURN. -/
theorem test_grant_before_return :
    after (.supply (.opened [4])) { lab with gate := labOpen.gate, supplyLink := ⟨.lost, none⟩ } (fun t =>
      (t.trip 1).state == .starting && t.plan.phase == .returning && t.gate.holder == .car 1) = true := by
  decide +kernel

/-- R77: RECOVERED in RECOVERY with nothing waiting. -/
theorem test_recovered :
    after .recovered labIdle (fun t => t.gate.state == .opened && t.gate.recoveryTimer == none) = true := by
  decide

/-- R150: H is 900 − 250 − 70 = 580 kW and Lc 70 kW. -/
theorem test_read_supply :
    after .readSupply lab (fun t => (t.port .supply).reply ==
      some ⟨[4, 0, 4, 0, 0x02, 0x44, 0, 70], 0, none⟩) = true := by
  decide

/-! ## The panel port -/

/-- R21. -/
theorem test_reserve :
    after (.reserve (.opened [1, 0, 60])) lab (fun t => t.rs == 310 && t.headroom == 520) = true := by
  decide +kernel

/-- R122, R126: reserves of 850 kW leave H at −20 kW, and car 0, with N 58, is ordered to land; at 830 kW H is
0 and there is no overcommit. -/
theorem test_reserve_sheds :
    after (.reserve (.opened [1, 0x02, 0x58])) lab (fun t =>
      t.account.overcommit == .holding && (t.trip 0).shedOrdered && t.hasNotice (.car 0) 5 &&
      t.shed.victims.map (fun v => (v.car, v.relief)) == [(0, 58)]) = true ∧
    after (.reserve (.opened [1, 0x02, 0x44])) lab (fun t =>
      t.account.overcommit == .none && t.shed.victims == []) = true := by
  decide +kernel

/-- Section 8.10: GATE-CLAIM abandons a RESERVE before its last unit. -/
theorem test_reserve_abandoned :
    after (.reserve (.opened [1, 1])) lab (fun s => after (.gateClaim (.opened [])) s (fun t =>
      t.rs == 250 && (t.port .panel).outcome == .abandoned &&
      (t.port .panel).request == some ⟨.gateClaim, []⟩)) = true := by
  decide +kernel

/-- R78. -/
theorem test_gate_claim :
    after (.gateClaim (.opened [0])) lab (fun t => t.gate.pendingClaim == some 0) = true ∧
    after (.gateClaim (.opened [1])) lab (fun t => (t.port .panel).outcome == .notPermitted) = true := by
  decide

/-- R80, R82: an entry waits, so the fairness window starts. -/
theorem test_gate_release :
    after .gateRelease labPanel (fun t =>
      t.gate.state == .recovery && t.gate.fairness == some ⟨10, 150⟩) = true := by
  decide

/-- R113, R114: car 0 runs, so its deselection waits. -/
theorem test_select :
    after (.select (.opened [3, 3, 12, 3])) lab (fun t =>
      t.plan.manualList == [3] && (t.car 0).pendDesel && !(t.car 3).pendDesel) = true := by
  decide +kernel

/-- The tower with car 2 PARKED and car 3 given up. -/
def labParked : State :=
  { lab with
    cars := (lab.cars.set 2 (labCar .parked)).set 3 (labCar .unavailable)
    gate := { lab.gate with stack := [0] }
    plan := { lab.plan with recallList := [], serviceOrder := [0] } }

/-- R112, R113: car 2 is listed and Nsel is 2. -/
theorem test_select_takes :
    after (.select (.opened [2, 2, 0])) labParked (fun t =>
      t.role 2 == .service && (t.car 2).powered && t.plan.serviceOrder == [0, 2] &&
      t.hasNotice (.car 2) 7) = true := by
  decide +kernel

/-- R60. -/
theorem test_include :
    after (.includeCar (.opened [2, 0x5A])) lab (fun t =>
      t.role 2 == .unavailable && t.plan.recallList == [] && t.hasNotice (.car 2) 8) = true := by
  decide +kernel

/-- R60, R107: an excluded recall car loses its entry and its slot, and the head of the list is called. -/
theorem test_include_frees_slot :
    after (.includeCar (.opened [1, 0x5A])) lab (fun t =>
      t.role 1 == .unavailable && (t.trip 1).verdict == .dropped .role && t.role 2 == .recall) = true := by
  decide +kernel

/-- R58. -/
theorem test_release_car :
    after (.releaseCar (.opened [3])) lab (fun t =>
      t.role 3 == .unavailable && t.gate.stack == [0] && t.lr == 0) = true := by
  decide +kernel

/-- Section 9.6, steps 1 and 2, on straps for 6 cars. -/
theorem test_site_write :
    after (.siteWrite (.opened (labTable.set 4 0x33).toList)) labFresh
      (fun t => (t.port .panel).outcome == .range && t.store.state == .idle) = true ∧
    after (.siteWrite (.opened labTable.toList)) labFresh
      (fun t => (t.port .panel).outcome == .accepted && t.store.state == .programming) = true := by
  decide +kernel

/-- R158: under the defaults unit 1 is the strapped count (section 9.6: 6). -/
theorem test_site_read :
    after .siteRead labFresh (fun t =>
      ((t.port .panel).reply.map (fun r => r.units.take 3)) == some [1, 6, 0x30]) = true := by
  decide

/-- R150: the first units of READ-ACCOUNT. -/
theorem test_read_account :
    after .readAccount lab (fun t =>
      ((t.port .panel).reply.map (fun r => r.units.take 16)) ==
        some [4, 4, 0x03, 0x84, 0x01, 0xC2, 0, 30, 0, 250, 0, 70, 0, 70, 0, 28]) = true := by
  decide

/-- R151: recall list, queue, stack, service order and roles. -/
theorem test_read_plan :
    after .readPlan lab (fun t => ((t.port .panel).reply.map (fun r => r.units)) ==
      some [1, 2, 1, 1, 0, 25, 2, 3, 0, 2, 3, 0, 4, 4, 2, 1, 6]) = true := by
  decide

/-! ## Any port -/

/-- Section 8.9, steps 6 and 10: the kinds of the snapshot go when unit 1 has been served, a later one
stays. -/
theorem test_read_notices :
    after (.readNotices (.car 2)) (lab.updPort (.car 2) (fun i => { i with notices := 3 })) (fun t =>
      (t.port (.car 2)).reply == some ⟨[0, 3], 0, some 3⟩) = true := by
  decide

theorem test_reply_unit :
    after (.replyUnitServed (.car 2) 0)
      (lab.updPort (.car 2) (fun i => { i with notices := 19, reply := some ⟨[0, 3], 1, some 3⟩ }))
      (fun t => (t.port (.car 2)).notices == 16 &&
        (t.port (.car 2)).shiftOut == [true, false, false, false, false, false, false, true, true] &&
        (t.port (.car 2)).reply == some ⟨[0, 3], 0, none⟩) = true := by
  decide

/-- R147. -/
theorem test_read_ident :
    after (.readIdent .supply) lab (fun t =>
      ((t.port .supply).reply.map (fun r => r.units)) == some [0x4C, 1, 4, 1, 0, 0]) = true := by
  decide

/-- R137: a SUPPLY code on a car port. -/
theorem test_unknown_opcode :
    after (.unknownOpcode (.car 2) 0x20) lab (fun t =>
      (t.port (.car 2)).outcome == .unknown && t.hasNotice (.car 2) 9) = true := by
  decide

/-- R135, R136, R138: a surplus unit leaves the port selected, and carries ones out. -/
theorem test_surplus_unit :
    after (.surplusUnit .panel 0x12) lab (fun t =>
      (t.port .panel).selLow && (t.port .panel).shiftOut == List.replicate 9 true &&
      (t.port .panel).request == none && (t.port .panel).outcome == .none) = true := by
  decide

/-- R135: a cut unit leaves a paused TRIP as it was (section 8.9, step 3), and the next unit starts at a
count of 0. -/
theorem test_unit_cut :
    after (.trip 1 (.opened [2])) labIdle (fun s =>
      after (.unitCut (.car 1) [true, true, false]) s (fun t =>
        (t.port (.car 1)).request == some ⟨.trip, [2]⟩ && (t.port (.car 1)).dout &&
        after (.trip 1 (.resumed [45])) t (fun u => (u.trip 1).load == 45))) = true := by
  decide

/-- R136: beside three bits of an argument unit a 1 and the first two bits of the next reply unit go out, and
the unit is still to be served. -/
theorem test_unit_cut_beside_reply :
    after (.unitCut (.car 2) [true, false, false])
      (lab.updPort (.car 2) (fun i => { i with reply := some ⟨[0x4C, 3], 0, none⟩ })) (fun t =>
      (t.port (.car 2)).shiftOut == [true, false, true] &&
      (t.port (.car 2)).reply == some ⟨[0x4C, 3], 0, none⟩) = true := by
  decide

/-- R43: a port that became configured inside a select takes requests from the next select on. -/
theorem test_next_select :
    let s := lab.updPort (.car 2) (fun i => { i with selLow := true, awaitSelect := true })
    after (.atSpeed 2) s (fun t => (t.port (.car 2)).outcome == .none &&
      after (.unitCut (.car 2) []) t (fun u =>
        after (.atSpeed 2) u (fun v => (v.port (.car 2)).outcome == .accepted))) = true := by
  decide

/-! ## Expiries, the store and reset -/

/-- R51: the waiting entry is dropped with LINK. -/
theorem test_car_link_timeout :
    after (.carLinkTimeout 1) lab (fun t =>
      t.role 1 == .lost && (t.car 1).preLoss == some .recall &&
      (t.trip 1).verdict == .dropped .link && t.hasNotice .panel 4) = true := by
  decide

/-- R118, R119. -/
theorem test_link_timeouts :
    after .supplyLinkTimeout lab (fun t => t.supplyLink.link == .lost && t.hasNotice .panel 13) = true ∧
    after .panelLinkTimeout lab (fun t => t.panelLink.link == .lost && t.hasNotice .supply 4) = true := by
  decide

/-- R99, R105, R107: the list is built in tier and class order and its head, class A, is called; car 2 is
at its recall landing. -/
theorem test_settle_expiry :
    after .settleExpiry labOutage (fun t =>
      t.plan.phase == .recall && t.gate.state == .opened && t.role 0 == .recall &&
      t.role 2 == .parked && t.plan.recallList == [⟨1, 1⟩]) = true := by
  decide +kernel

/-- R116. -/
theorem test_return_timer :
    after .returnTimerExpiry labReturn (fun t =>
      t.plan.clearance == .clear && t.hasNotice .supply 1 && t.hasNotice .panel 10) = true := by
  decide

/-- R109: a waiting car fails its recall, and its slot goes to the next of the list. -/
theorem test_recall_supervision :
    after (.recallSupervisionExpiry 1) lab (fun t =>
      t.role 1 == .held && (t.car 1).recallFailed && t.role 2 == .recall &&
      t.queue.entries == []) = true := by
  decide

/-- R73, R81. -/
theorem test_windows :
    after .startWindowExpiry labStart (fun t =>
      (t.trip 0).startOverdue && (t.trip 0).state == .starting && t.gate.state == .recovery) = true ∧
    after .panelWindowExpiry labPanel (fun t =>
      t.gate.heldClaim == none && t.gate.state == .recovery && t.hasNotice .panel 7) = true := by
  decide

/-- R77, R67: the gate opens and grants the waiting trip. -/
theorem test_recovery_expiry :
    after .recoveryExpiry lab (fun t =>
      t.gate.holder == .car 1 && t.lc == 101 && t.gate.stack == [3, 0, 1]) = true := by
  decide

/-- R82: the window's end grants the claim that waits. -/
theorem test_fairness_expiry :
    after .fairnessExpiry { labOpen with gate := { labOpen.gate with
        pendingClaim := some 0, fairness := some ⟨0, 150⟩ } } (fun t =>
      t.gate.heldClaim == some 0 && t.gate.holder == .panel) = true := by
  decide

/-- R89. -/
theorem test_head_age :
    after .headAgeExpiry lab (fun t => t.queue.headAged && t.queue.headTimer == none) = true := by decide

/-- R129: the entry lapses, and the flagged trip is not chosen again. -/
theorem test_shed_supervision :
    after (.shedSupervisionExpiry 0) labShed (fun t =>
      t.hasNotice .panel 3 && (t.shed.victims.map (fun v => v.standing)) == [.lapsed]) = true := by
  decide

/-- R156. -/
theorem test_programming_end :
    after .storeProgrammingEnd labWriting (fun t =>
      t.store.state == .idle && t.store.nv.image == labTable && t.hasNotice .panel 14) = true := by
  decide

/-- R157: a write that is cut leaves a store that does not match. -/
theorem test_reset : ∃ t, exec .reset labWriting = .next t ∧ t.rstLow = true ∧ t.plan.phase = .start ∧
    t.store.nv.matching = false :=
  ⟨_, rfl, rfl, rfl, NvStore.spoiled_matching ..⟩

/-- R160: a blank store brings the defaults and SITE_INVALID, and a port keeps its SELn line alone. -/
theorem test_reset_release :
    State.reset.store.active = defaultImage 12 ∧ State.reset.hasNotice .panel 12 = true ∧
    (let low := lab.updPort .supply (fun i => { i with selLow := true, request := some ⟨.offer, [1]⟩ });
      after (.resetRelease 3 false) { low with rstLow := true, store := { lab.store with nv := .blank } }
        (fun t => (t.port .supply).selLow && (t.port .supply).request == none &&
          t.plan.phase == .start)) = true := by
  refine ⟨by rw [State.reset_store], ?_, by decide⟩
  simp only [State.hasNotice, State.port, State.reset_ports]
  decide

/-! ## For each statement with hypotheses, states and operands that meet them -/

/-- The profile with the largest figures (R13's table). -/
def bigProfile : Profile := { pr := 400, b := 60, f := 32, a := 40, g := 16, tland := 1, trun := 19200 }

/-- The profile with the smallest figures (R13's table). -/
def leastProfile : Profile := { pr := 5, b := 50, f := 8, a := 0, g := 0, tland := 19200, trun := 1 }

theorem bigProfile_inRange : bigProfile.InRange := by constructor <;> decide

theorem leastProfile_inRange : leastProfile.InRange := by constructor <;> decide

/-- E positive, zero, negative and beyond the limit, and a load of 100 going up. -/
theorem witness_RunningMagnitude :
    bigProfile.InRange ∧ effImbalance .up (imbalance bigProfile 125) = 65 ∧
    effImbalance .up (imbalance bigProfile 60) = 0 ∧
    effImbalance .up (imbalance bigProfile 0) = -60 ∧
    effImbalance .up (imbalance bigProfile 100) = 40 ∧
    effImbalance .down (imbalance bigProfile 125) = -65 ∧
    runningMagnitude bigProfile (-65) < ceilDiv (400 * 65) 40 := by
  and_intros <;> first | exact bigProfile_inRange | decide

/-- The net running power negative, zero with E negative, and positive; both ends of G; all three readings
of the direction unit. -/
theorem witness_FiguresOfATrip :
    bigProfile.InRange ∧ leastProfile.InRange ∧ netRunning bigProfile (-60) = -550 ∧
    netRunning leastProfile (-1) = 0 ∧ netRunning bigProfile 65 = 700 ∧
    netRunning { leastProfile with pr := 400 } (-50) = -350 ∧
    (demandOf bigProfile 3 0).direction = .down := by
  and_intros <;> first | exact bigProfile_inRange | exact leastProfile_inRange | decide

theorem witness_DemandBounds :
    bigProfile.InRange ∧ leastProfile.InRange ∧ bigProfile.pr = 400 ∧ leastProfile.pr < 400 :=
  ⟨bigProfile_inRange, leastProfile_inRange, by decide, by decide⟩

theorem witness_ChargesAndSums :
    lab.InRange ∧ (lab.trip 0).state = .running ∧ (lab.trip 0).kind = .motoring ∧
    (lab.trip 1).state = .waiting ∧ (lab.trip 2).state = .none ∧ (lab.trip 3).kind = .regen ∧
    (lab.trip 3).state = .running ∧ (labStart.trip 0).state = .starting ∧
    labFresh.singleCar = true ∧ lab.singleCar = false := by
  and_intros <;> first | exact lab_sound.inRange | decide

/-- A trip that fits now. -/
theorem witness_FitTests : lab.fitsNow 1 = true := by decide

/-- Entries of other purpose, of other class, and of other stamp; and a queue in order. -/
theorem witness_QueueOrder :
    (lab.trip 1).purpose = some .recall ∧ (lab.trip 0).purpose = some .service ∧
    (lab.trip 3).purpose = (lab.trip 0).purpose ∧
    rankOf lab.store.active 0 < rankOf lab.store.active 3 ∧
    rankOf lab.store.active 1 = rankOf lab.store.active 3 ∧
    (lab.trip 3).stamp = some 0 ∧ (lab.trip 1).stamp = some 2 ∧
    [(1 : CarIx), 0].Pairwise (fun a b => entryBefore lab a b = true) ∧
    (∀ a ∈ [(1 : CarIx), 0], entryBefore lab a 3 = true ∨ entryBefore lab 3 a = true) := by decide

/-- The same class at two stamps. -/
theorem witness_QueueOrder_stamp :
    let s := labIdle.updTrip 1 (fun t => { t with purpose := some .service })
    (s.trip 3).purpose = (s.trip 1).purpose ∧
    rankOf s.store.active 3 = rankOf s.store.active 1 ∧ (s.trip 3).stamp = some 0 ∧
    (s.trip 1).stamp = some 2 := by decide

theorem witness_RepliesReadBack :
    lab.InRange ∧ (lab.trip 1).state = .waiting ∧ lab.queue.entries = [] ++ 1 :: [] ∧
      (lab.trip 0).state ≠ .waiting :=
  ⟨lab_sound.inRange, by decide, by decide, by decide⟩

theorem witness_PlanReplyLength : lab.Sound ∧ labMains.Sound ∧ labMains.plan.phase.quiet = true :=
  ⟨lab_sound, labMains_sound, by decide⟩

theorem witness_StepRunsFront : lab.pending = .offer :: [] := by decide

/-- No timer due, one due, several due. -/
theorem witness_StepOnAnEmptyQueue :
    dueExpiries { lab with pending := [] } = [] ∧
    dueExpiries { lab with pending := [], gate := { lab.gate with recoveryTimer := some ⟨0, 10⟩ } } =
      [.recoveryExpiry] ∧
    2 ≤ (dueExpiries { lab with pending := [], now := 50 }).length := by decide

theorem witness_PausedRequests :
    ∃ a b c d e f g h i,
      exec (.trip 1 (.opened [2])) lab = .next a ∧ exec (.state 1 (.opened [])) lab = .next b ∧
      exec (.supply (.opened [])) lab = .next c ∧ exec (.reserve (.opened [0, 1])) lab = .next d ∧
      exec (.gateClaim (.opened [])) lab = .next e ∧ exec (.select (.opened [2])) lab = .next f ∧
      exec (.includeCar (.opened [1])) lab = .next g ∧ exec (.releaseCar (.opened [])) lab = .next h ∧
      exec (.siteWrite (.opened [1])) lab = .next i :=
  ⟨_, _, _, _, _, _, _, _, _, rfl, rfl, rfl, rfl, rfl, rfl, rfl, rfl, rfl⟩

/-- The account cut to exactly what the trip needs: U is S, and O is Rs, S, A and the standing charges. -/
def labTight : State := { labIdle with account := { labIdle.account with offer := 413, stepLimit := 145 } }

theorem witness_TripWaits :
    ignores labTight (.car 1) = false ∧ labTight.plan.phase = .service ∧ labTight.role 1 = .recall ∧
    (labTight.trip 1).state = .none ∧ labTight.Settled ∧ labTight.gate.state ≠ .opened ∧
    (demandOf (labTight.car 1).profile 1 80).s = labTight.account.stepLimit ∧
    151 + labTight.standingAll + labTight.rs = labTight.account.offer ∧
    151 + labTight.standingOn (labTight.feeder 1) ≤ labTight.rating (labTight.feeder 1) := by
  and_intros <;> first | decide | (constructor <;> decide)

/-- An OPEN gate with no entry and one kilowatt too little; and with the supply silent. -/
theorem witness_TripWaits_open :
    (let s : State := { labOpen with account := { labOpen.account with offer := 470, stepLimit := 0 } };
      ignores s (.car 1) = false ∧ s.plan.phase = .service ∧ s.role 1 = .recall ∧
      (s.trip 1).state = .none ∧ s.Settled ∧ s.gate.pendingClaim = none ∧ s.queue.entries = [] ∧
      (s.car 1).powered = false ∧
      s.headroom < ((demandOf (s.car 1).profile 1 80).s + (s.car 1).profile.a : Nat) ∧
      (demandOf (s.car 1).profile 1 80).s + (s.car 1).profile.a + s.standingAll + s.rs ≤
        s.account.offer ∧
      (demandOf (s.car 1).profile 1 80).s + (s.car 1).profile.a + s.standingOn (s.feeder 1) ≤
        s.rating (s.feeder 1)) ∧
    (let s : State := { labOpen with supplyLink := ⟨.lost, none⟩ };
      s.Settled ∧ s.gate.state = .opened ∧ s.gate.pendingClaim = none ∧ s.supplyLink.link ≠ .up) := by
  and_intros <;> first | decide | (constructor <;> decide)

/-- The gate OPEN and the headroom exactly the trip's need; a REGEN trip too. -/
def labTightOpen : State := { labOpen with account := { labOpen.account with offer := 471, stepLimit := 0 } }

theorem witness_TripGrantedAtOnce :
    ignores labTightOpen (.car 1) = false ∧ labTightOpen.plan.phase = .service ∧
    labTightOpen.role 1 = .recall ∧ (labTightOpen.trip 1).state = .none ∧ labTightOpen.Settled ∧
    labTightOpen.account.overcommit = .none ∧ labTightOpen.supplyLink.link = .up ∧
    labTightOpen.gate.state = .opened ∧ labTightOpen.gate.pendingClaim = none ∧
    labTightOpen.queue.entries = [] ∧ labTightOpen.headroom = 151 ∧
    (demandOf (labTightOpen.car 1).profile 1 80).s + (labTightOpen.car 1).profile.a = 151 ∧
    labTightOpen.feederLoad (labTightOpen.feeder 1) + 151 ≤ labTightOpen.rating (labTightOpen.feeder 1) ∧
    labTightOpen.account.stepLimit = 0 ∧
    (demandOf (labTightOpen.car 1).profile 1 10).kind = .regen ∧
    -(labTightOpen.account.absorb : Int) ≤ (labTightOpen.lb : Int) - labTightOpen.lr -
      (demandOf (labTightOpen.car 1).profile 1 10).ret := by
  and_intros <;> first | decide | (constructor <;> decide)

/-- One state for each row of the screen; and a fresh and a WAITING trip that each fail one test by a
kilowatt, and a WAITING one that passes both. -/
theorem witness_TripScreened :
    (labMains.Settled ∧ ignores labMains (.car 0) = false ∧ (0 : CarIx) ∉ labMains.queue.entries ∧
      labMains.plan.phase = .mains) ∧
    (labOutage.Settled ∧ ignores labOutage (.car 0) = false ∧ (0 : CarIx) ∉ labOutage.queue.entries ∧
      labOutage.plan.phase = .outage) ∧
    (lab.Settled ∧ ignores lab (.car 2) = false ∧ (2 : CarIx) ∉ lab.queue.entries ∧
      lab.plan.phase = .service ∧ lab.role 2 = .held) ∧
    (ignores lab (.car 0) = false ∧ (0 : CarIx) ∉ lab.queue.entries ∧ lab.role 0 = .service ∧
      (lab.trip 0).state = .running) ∧
    (lab.Consistent ∧ lab.role 1 = .recall ∧ (lab.trip 1).state = .waiting ∧
      (demandOf (lab.car 1).profile 1 80).s = 145 ∧ 145 ≤ lab.account.stepLimit ∧
      151 + lab.standingAll + lab.rs ≤ lab.account.offer) := by
  and_intros <;> first
    | exact labMains_settled | exact labOutage_settled | exact lab_settled | exact lab_consistent | decide

/-- The step limit, and then the offer, one below what the trip needs. -/
theorem witness_TripScreened_refused :
    (let s : State := { labTight with account := { labTight.account with stepLimit := 144 } };
      s.Settled ∧ (1 : CarIx) ∉ s.queue.entries ∧ (s.trip 1).state = .none ∧
      s.account.stepLimit < (demandOf (s.car 1).profile 1 80).s) ∧
    (let s : State := { labTight with account := { labTight.account with offer := 412 } };
      s.Settled ∧ (1 : CarIx) ∉ s.queue.entries ∧ (s.trip 1).state = .none ∧
      s.account.offer < 151 + s.standingAll + s.rs) ∧
    (let s : State := { lab with account := { lab.account with stepLimit := 144 } };
      s.Settled ∧ s.Consistent ∧ (s.trip 1).state = .waiting ∧
      s.account.stepLimit < (demandOf (s.car 1).profile 1 80).s) ∧
    (let s : State := { lab with account := { lab.account with offer := 412 } };
      s.Settled ∧ s.Consistent ∧ (s.trip 1).state = .waiting ∧
      s.account.offer < 151 + s.standingAll + s.rs) := by
  and_intros <;> first | decide | (constructor <;> decide)

theorem witness_WithdrawCompletes :
    ignores lab (.car 1) = false ∧ lab.Settled ∧ (lab.trip 1).state = .waiting ∧
    lab.gate.state ≠ .opened ∧ (lab.trip 2).state ≠ .waiting :=
  ⟨by decide, lab_settled, by decide, by decide, by decide⟩

/-- The holder of the gate; a car LOST; a car with no starting trip. -/
theorem witness_AtSpeedCompletes :
    ignores labStart (.car 0) = false ∧ labStart.Consistent ∧ labStart.role 0 ≠ .lost ∧
    (labStart.trip 0).state = .starting ∧ labStart.gate.state ≠ .opened ∧ labStart.Settled ∧
    labStart.role 3 = .lost ∧ labStart.plan.phase.generator = true ∧
    (labStart.trip 2).state ≠ .starting := by
  and_intros <;> first | exact labStart_consistent | exact labStart_settled | decide

/-- A recall car with a starting trip at its recall landing, and a service car with an exclusion pending. -/
def labLanding : State :=
  { lab with
    cars := (lab.cars.set 0 { car0 with pendExcl := true }).set 1
      { car1 with position := .atRecall, powered := true,
                  trip := { car1.trip with state := .starting } }
    queue := .atReset
    gate := { Gate.atReset with
      state := .carStart, holder := .car 1, startTimer := some ⟨5, 80⟩, stack := [3, 0, 1] } }

theorem labLanding_consistent : labLanding.Consistent := by
  constructor <;> decide

/-- At its recall landing and away from it; an exclusion pending; ignored reports. -/
theorem witness_TripEnds :
    ignores labLanding (.car 1) = false ∧ labLanding.Consistent ∧ labLanding.gate.state ≠ .opened ∧
    labLanding.role 1 = .recall ∧ (labLanding.trip 1).state = .starting ∧
    (labLanding.car 1).pendExcl = false ∧ (labLanding.car 1).pendUnavail = false ∧
    (labLanding.car 1).position = .atRecall ∧
    labLanding.role 0 ≠ .lost ∧ (labLanding.trip 0).state.moving = true ∧
    (labLanding.car 0).pendExcl = true ∧ (labLanding.trip 2).state.moving = false ∧
    labLanding.role 3 = .lost ∧ labLanding.plan.phase.generator = true ∧
    (let s := labLanding.updCar 1 (fun r => { r with position := .between });
      s.Consistent ∧ s.plan.phase ≠ .returning ∧ s.role 1 = .recall ∧
      (s.car 1).position ≠ .atRecall) := by
  and_intros <;> first | decide | (constructor <;> decide)

/-- The tower in RETURN with car 0 alone in motion, left out of an empty manual list. -/
def labLast : State :=
  { labReturn with
    cars := (labReturn.cars.set 0 { car0 with pendDesel := true }).set 3
      { car3 with powered := false, trip := { car3.trip with state := .none } }
    gate := { labReturn.gate with stack := [0] }
    plan := { labReturn.plan with mode := .manual } }

/-- The last of the stack and not the last; a deselection pending; a recall car in RETURN. -/
theorem witness_TripEnds_return :
    labLast.Consistent ∧ labLast.plan.phase = .returning ∧ labLast.plan.clearance = .notClear ∧
    (∀ e ∈ labLast.gate.stack, e = 0) ∧ labLast.role 0 = .service ∧
    (labLast.car 0).pendDesel = true ∧ (0 : CarIx) ∉ labLast.plan.manualList ∧
    (labLast.trip 0).state.moving = true ∧ labReturn.Consistent ∧
    (∃ e ∈ labReturn.gate.stack, e ≠ 0) ∧
    (let s := { labLanding.updCar 1 (fun r => { r with position := .between }) with
        plan := labReturn.plan };
      s.Consistent ∧ s.plan.phase = .returning ∧ s.role 1 = .recall ∧
      (s.trip 1).state.moving = true ∧ (s.car 1).position ≠ .atRecall) := by
  and_intros <;> first | decide | (constructor <;> decide)

/-- Car 1 of the idle tower LOST, with this role as its pre-loss role. -/
def labLostIdle (role : Role) : State :=
  { labIdle.updCar 1 (fun r =>
      { r with role := .lost, preLoss := some role,
               slotStart := if role = .recall then r.slotStart else none,
               recallTimer := if role = .recall then r.recallTimer else none }) with
    plan := { labIdle.plan with serviceOrder := if role = .service then [3, 0, 1] else [3, 0] } }

/-- Car 2 UNAVAILABLE, and so out of the list. -/
def labUnavailable : State :=
  { lab.updCar 2 (fun r => { r with role := .unavailable }) with
    plan := { lab.plan with recallList := [] } }

/-- On mains; a car standing in a generator phase; a LOST car in motion and idle, with each pre-loss role; an
UNAVAILABLE car; HELD; in recall, waiting and idle; and in motion on a permit. -/
theorem witness_StateRecords :
    ignores lab (.car 2) = false ∧ labMains.plan.phase.generator = false ∧
    labMains.role 0 = .free ∧ labMains.role 3 = .lost ∧
    (lab.trip 2).state = .none ∧ motionOf 0x9A = .moving ∧ motionOf 0x99 = .still ∧
    availableOf 0x95 = false ∧ availableOf 0x9A = true ∧ positionOf 0x99 ≠ .atRecall ∧
    lab.Sound ∧ lab.plan.phase = .service ∧
    lab.role 3 = .lost ∧ (lab.trip 3).state.moving = true ∧ (lab.car 3).included = true ∧
    (lab.car 3).pendExcl = false ∧ (lab.car 3).pendUnavail = false ∧
    lab.role 2 = .held ∧ lab.role 1 = .recall ∧ (lab.trip 1).state = .waiting ∧
    lab.role 0 = .service ∧ (lab.trip 0).state.moving = true ∧
    labUnavailable.role 2 = .unavailable ∧ (labUnavailable.car 2).included = true ∧
    (labUnavailable.car 2).recallFailed = false ∧ labIdle.role 1 = .recall ∧
    (labIdle.trip 1).state = .none := by
  and_intros <;> first | exact lab_sound | decide

theorem witness_StateRecords_sound :
    (labUnavailable.Consistent ∧ labUnavailable.RecordsSound ∧ labUnavailable.Settled) ∧
    (labIdle.Consistent ∧ labIdle.RecordsSound ∧ labIdle.Settled) ∧
    ((labLostIdle .held).Consistent ∧ (labLostIdle .held).RecordsSound ∧ (labLostIdle .held).Settled) ∧
    ((labLostIdle .recall).Consistent ∧ (labLostIdle .recall).RecordsSound ∧
      (labLostIdle .recall).Settled) ∧
    ((labLostIdle .service).Consistent ∧ (labLostIdle .service).RecordsSound ∧
      (labLostIdle .service).Settled) := by
  and_intros <;> constructor <;> decide

/-- Car 1 LOST, its recall failed, and then back at its recall landing. -/
def labLostFailed : State := (labLostIdle .held).updCar 1 (fun r => { r with recallFailed := true })

theorem witness_StateRecords_failed :
    labLostFailed.Consistent ∧ labLostFailed.RecordsSound ∧ labLostFailed.Settled ∧
    labLostFailed.role 1 = .lost ∧ (labLostFailed.car 1).recallFailed = true ∧
    (labLostFailed.car 1).included = true ∧ (labLostFailed.car 1).pendExcl = false ∧
    (labLostFailed.car 1).pendUnavail = false ∧ positionOf 0x59 = .atRecall ∧ availableOf 0x59 = true := by
  and_intros <;> first | decide | (constructor <;> decide)

/-- R109: it is HELD and stays out; R54: with its recall not failed it is PARKED, and here selected. -/
theorem test_state_failed_return :
    after (.state 1 (.opened [0x59])) labLostFailed (fun t => t.role 1 == .held && !listed t 1) = true ∧
    after (.state 1 (.opened [0x59])) (labLostIdle .held) (fun t =>
      t.role 1 == .parked || t.role 1 == .service) = true := by
  decide +kernel

theorem witness_ProfileOpens :
    ignores lab (.car 0) = false ∧ lab.role 0 = .service ∧ lab.role 1 = .recall ∧ lab.role 3 = .lost ∧
    ignores lab (.car 2) = false ∧ lab.role 2 = .held := by decide

/-- The first field and the last, with the role allowing and refusing it. -/
theorem witness_ProfileFieldLatches :
    (let s := lab.updPort (.car 2) (fun i => { i with request := some ⟨.profile, []⟩ });
      ignores s (.car 2) = false ∧ (s.port (.car 2)).request = some ⟨.profile, []⟩ ∧
      s.role 2 = .held) ∧
    (let s := lab.updPort (.car 0) (fun i => { i with request := some ⟨.profile, [1, 1, 1, 1, 1, 1, 1]⟩ });
      ignores s (.car 0) = false ∧
      (s.port (.car 0)).request = some ⟨.profile, [1, 1, 1, 1, 1, 1, 1]⟩ ∧ s.role 0 = .service) := by
  decide

theorem witness_ReadsAnswer :
    ignores lab (.car 0) = false ∧ ignores lab .supply = false ∧ ignores lab .panel = false ∧
    lab.supplyLink.link = .up ∧ State.reset.supplyLink.link ≠ .up := by decide

theorem witness_IdentAndSiteUnits : labFresh.StoreSound ∧ labFresh.store.site = .default :=
  ⟨by constructor <;> decide, by decide⟩

theorem witness_UnknownOpcodeCompletes :
    ignores lab (.car 2) = false ∧ Request.ofCode (.car 2) 0x20 = none ∧ ignores lab .supply = false ∧
    Request.ofCode .supply 0x10 = none ∧ lab.supplyLink.link = .up ∧ ignores lab .panel = false ∧
    Request.ofCode .panel 0xFF = none := by decide

/-- A port with nothing, one that serves a reply, and one that is absent. -/
theorem witness_UnitsOfNoRequest :
    ignores lab .panel = false ∧ (lab.port .panel).request = none ∧ (lab.port .panel).reply = none ∧
    ignores lab (.car 11) = true ∧ (List.replicate 8 true).length ≤ 8 ∧
    (let s := lab.updPort .panel (fun i => { i with reply := some ⟨[0x4C, 3], 0, none⟩ });
      ignores s .panel = false ∧ (s.port .panel).reply = some ⟨[0x4C, 3], 0, none⟩) := by decide

/-- Unit 1, the last, of a READ-NOTICES reply. -/
theorem witness_ReplyUnitGoesOut :
    let s := lab.updPort .panel (fun i => { i with reply := some ⟨[0, 3], 1, some 3⟩ })
    ignores s .panel = false ∧ (s.port .panel).request = none ∧
    (s.port .panel).reply = some ⟨[0, 3], 1, some 3⟩ := by decide

/-- A code that names no state, one that changes the phase, and a settled part with its supply link UP. -/
theorem witness_SupplyMovesPhase :
    ignores lab .supply = false ∧ supplyStateOf 6 = none ∧ supplyStateOf 5 = some .genLost ∧
    lab.supplyLink.link = .up ∧ lab.Settled ∧ lab.store.state ≠ .awaitingActivation ∧
    nextPhase lab.plan.phase lab.plan.recallDone .genLost ≠ lab.plan.phase := by
  and_intros <;> first | exact lab_settled | decide

/-- The tower in RETURN with car 2 HELD and out of the list. -/
def labHeldBack : State := { labReturn with plan := { labReturn.plan with recallList := [] } }

theorem labHeldBack_sound : labHeldBack.Sound where
  inRange := inRange_of (by decide) (fun c => by constructor <;> revert c <;> decide)
    (by constructor <;> decide)
  store := by constructor <;> decide
  absent := by decide
  ports := portsSound_of rfl
  consistent := by constructor <;> decide
  settled := by constructor <;> decide
  bounded := by constructor <;> decide
  called := by constructor <;> decide
  timed := by constructor <;> decide
  records := by constructor <;> decide
  ordered := by constructor <;> decide
  victims := by constructor <;> decide

/-- GEN_READY and RETRANSFER on mains and from START, in OUTAGE, out of SERVICE and in RETURN: sound states,
with cars heard and not heard, waiting, HELD and LOST. -/
theorem witness_SupplyMovesPhase_phases :
    supplyStateOf 3 = some .genReady ∧ supplyStateOf 4 = some .retransfer ∧
    (labMains.Sound ∧ labMains.plan.phase = .mains ∧ labMains.plan.settleTimer = none ∧
      labMains.configured 0 = true ∧ (labMains.car 0).link = .up ∧ (labMains.car 3).link ≠ .up) ∧
    (labOutage.Sound ∧ labOutage.plan.phase = .outage ∧ labOutage.plan.settleTimer.isSome = true) ∧
    (labFresh.Sound ∧ labFresh.plan.phase = .start) ∧
    (lab.Sound ∧ lab.plan.phase = .service ∧ lab.supplyLink.link = .up ∧ lab.gate.stack ≠ [] ∧
      lab.role 1 = .recall ∧ (lab.trip 1).state = .waiting ∧ lab.account.overcommit = .none) ∧
    (labHeldBack.Sound ∧ labHeldBack.plan.phase = .returning ∧ labHeldBack.supplyLink.link = .up ∧
      labHeldBack.role 2 = .held ∧ (labHeldBack.car 2).recallFailed = false ∧
      listed labHeldBack 2 = false) := by
  and_intros <;> first
    | exact labMains_sound | exact labOutage_sound | exact lab_sound | exact labFresh_sound
    | exact labHeldBack_sound | decide

/-- A car heard, one LOST, and one UNAVAILABLE whose link is not UP. -/
theorem witness_SupplyEndsService :
    ignores lab .supply = false ∧ supplyStateOf 5 = some .genLost ∧ supplyStateOf 1 = some .mains ∧
    lab.plan.phase.generator = true ∧ lab.plan.phase ≠ .outage ∧ lab.supplyLink.link = .up ∧
    lab.store.state ≠ .awaitingActivation ∧ lab.role 3 = .lost ∧ (lab.car 1).link = .up ∧
    (let s := labUnavailable.updCar 2 (fun r => { r with link := .lost, linkTimer := none });
      ignores s .supply = false ∧ s.plan.phase = .service ∧ s.role 2 = .unavailable ∧
      (s.car 2).link ≠ .up) := by decide

/-- The tower with an OFFER in progress that has taken these units. -/
def labOffering (args : List Byte) : State :=
  lab.updPort .supply (fun i => { i with request := some ⟨.offer, args⟩ })

/-- Car 1 waits with S 25 and A 6, with 12 kW of standing charges and 250 kW of reserves: at rest it takes
293 kW. -/
theorem witness_OfferLatches :
    ignores lab .supply = false ∧ lab.Consistent ∧ lab.Settled ∧
    (ignores (labOffering []) .supply = false ∧ (labOffering []).Consistent ∧
      (labOffering []).Settled ∧ ((labOffering []).port .supply).request = some ⟨.offer, []⟩) ∧
    (((labOffering [1, 2]).port .supply).request = some ⟨.offer, [1, 2]⟩ ∧
      (labOffering [1, 2]).Consistent ∧ (labOffering [1, 2]).Settled) ∧
    (((labOffering [1, 2, 3, 4]).port .supply).request = some ⟨.offer, [1, 2, 3, 4]⟩ ∧
      (labOffering [1, 2, 3, 4]).Consistent ∧ (labOffering [1, 2, 3, 4]).Settled) ∧
    ((lab.trip 1).state = .waiting ∧ (lab.trip 1).s = 25 ∧ lab.account.stepLimit = 450 ∧
      lab.standingAll = 12 ∧ lab.rs = 250 ∧ (lab.car 1).profile.a = 6 ∧ (lab.car 1).powered = false) := by
  and_intros <;> first | exact lab_settled | exact lab_consistent | decide | (constructor <;> decide)

/-- A waiting trip that fits, none at all, one that does not fit, a supply link not UP, and a claim. -/
theorem witness_GateRecovers :
    (lab.Settled ∧ lab.gate.state = .recovery ∧ lab.gate.recoveryTimer.isSome = true ∧
      ignores lab .supply = false ∧ lab.supplyLink.link = .up ∧ lab.gate.pendingClaim = none ∧
      bypass lab.store.active = true ∧ lab.queue.entries = [1] ∧ lab.fitsNow 1 = true) ∧
    (labIdle.Settled ∧ labIdle.gate.state = .recovery ∧ labIdle.queue.entries = []) ∧
    (let s : State := { lab with account := { lab.account with offer := 350 } };
      s.Settled ∧ s.gate.state = .recovery ∧ s.fitsNow 1 = false) ∧
    (let s : State := { lab with supplyLink := ⟨.lost, none⟩ };
      s.Settled ∧ s.gate.state = .recovery ∧ s.supplyLink.link ≠ .up) ∧
    (let s : State := { lab with gate := { lab.gate with pendingClaim := some 0 } };
      s.Settled ∧ s.gate.state = .recovery ∧ s.gate.pendingClaim = some 0 ∧ s.gate.fairness = none) ∧
    labStart.Settled ∧ labStart.gate.state ≠ .recovery := by
  and_intros <;> first | decide | (constructor <;> decide)

/-- Entry 7 and entry 8; a pending claim named by an emptied entry; a held claim. -/
theorem witness_ReserveWrites :
    ignores lab .panel = false ∧ (7 : Byte).toNat < 8 ∧ 8 ≤ (8 : Byte).toNat ∧ lab.Settled ∧
    lab.Consistent ∧ (lab.trip 1).state = .waiting ∧
    ({ lab with gate := { lab.gate with pendingClaim := some 0 } }).gate.pendingClaim = some 0 ∧
    labPanel.gate.state = .panelStart ∧ labPanel.gate.pendingClaim = none ∧ lab.rs = 250 ∧
    lab.account.reserves[0] = some 250 ∧ lab.account.reserves[1] = none ∧ lab.Sound := by
  and_intros <;> first | exact lab_settled | exact lab_consistent | exact lab_sound | decide

/-- Each row of R78's table; the gate busy and OPEN. -/
theorem witness_GateClaimAnswered :
    (ignores labMains .panel = false ∧ labMains.Settled ∧ labMains.plan.phase = .mains) ∧
    (ignores labOutage .panel = false ∧ labOutage.Settled ∧ labOutage.plan.phase = .outage) ∧
    (ignores lab .panel = false ∧ lab.Settled ∧ lab.plan.phase = .service ∧
      lab.account.reserves[7] = none ∧ lab.account.reserves[0] ≠ none ∧ lab.gate.pendingClaim = none ∧
      lab.gate.heldClaim = none ∧ lab.gate.state ≠ .opened) ∧
    (labPanel.Settled ∧ labPanel.gate.heldClaim.isSome = true) ∧
    (labOpen.Settled ∧ labOpen.gate.state = .opened ∧ labOpen.gate.fairness = none ∧
      labOpen.account.reserves[0] ≠ none) ∧
    (let s : State := { labOpen with gate := { labOpen.gate with fairness := some ⟨0, 150⟩ } };
      s.Settled ∧ s.gate.state = .opened ∧ s.gate.fairness.isSome = true ∧
      s.account.reserves[0] ≠ none ∧ s.gate.pendingClaim = none ∧ s.gate.heldClaim = none) :=
  ⟨⟨by decide, labMains_settled, by decide⟩, ⟨by decide, labOutage_settled, by decide⟩,
    ⟨by decide, lab_settled, by decide⟩, ⟨labPanel_settled, by decide⟩, ⟨labOpen_settled, by decide⟩,
    ⟨(by constructor <;> decide), by decide⟩⟩

theorem witness_GateReleaseCompletes :
    ignores labPanel .panel = false ∧ labPanel.Settled ∧ labPanel.gate.heldClaim.isSome = true ∧
    lab.Settled ∧ lab.gate.heldClaim = none ∧ lab.gate.pendingClaim = none ∧
    ({ lab with gate := { lab.gate with pendingClaim := some 0 } }).Settled :=
  ⟨by decide, labPanel_settled, by decide, lab_settled, by decide, by decide,
    (by constructor <;> decide)⟩

/-- No index, and twelve after the clamp; a service car in motion and one at rest that are left out. -/
theorem witness_SelectSetsPlan :
    ignores lab .panel = false ∧ ([] : List Byte).length = min 12 (0 : Byte).toNat ∧
    (List.replicate 12 (3 : Byte)).length = min 12 (13 : Byte).toNat ∧ lab.Consistent ∧
    lab.plan.phase = .service ∧ lab.role 0 = .service ∧ (lab.trip 0).state.moving = true ∧
    (let s := lab.updTrip 0 (fun t => { t with state := .none });
      s.role 0 = .service ∧ (s.trip 0).state.moving = false ∧ s.configured 0 = true) := by
  and_intros <;> first | exact lab_consistent | decide

/-- The same with its stack without car 0 is consistent. -/
theorem witness_SelectSetsPlan_idle :
    ({ lab.updTrip 0 (fun t => { t with state := .none }) with
      gate := { lab.gate with stack := [3] } }).Consistent := by
  constructor <;> decide

/-- Car 2 HELD with its recall failed, and so out of the list. -/
def labFailed : State :=
  { lab.updCar 2 (fun r => { r with recallFailed := true }) with
    plan := { lab.plan with recallList := [] } }

/-- Car 2 UNAVAILABLE because it is excluded. -/
def labExcluded : State := labUnavailable.updCar 2 (fun r => { r with included := false })

/-- No such car; HELD; waiting in recall; in motion; LOST on the generator and on mains; FREE; UNAVAILABLE;
excluded already; HELD after a failed recall. -/
theorem witness_IncludeCompletes :
    (ignores lab .panel = false ∧ 12 ≤ (12 : Byte).toNat ∧ lab.Settled ∧ lab.configured 11 = false ∧
      (11 : Byte).toNat < 12 ∧ lab.Consistent) ∧
    (lab.configured 2 = true ∧ (lab.car 2).included = true ∧ lab.role 2 = .held) ∧
    (lab.configured 1 = true ∧ (lab.car 1).included = true ∧ lab.role 1 = .recall ∧
      (lab.trip 1).state = .waiting) ∧
    (lab.configured 0 = true ∧ (lab.car 0).included = true ∧ lab.role 0 = .service ∧
      (lab.trip 0).state.moving = true) ∧
    (lab.configured 3 = true ∧ (lab.car 3).included = true ∧ lab.role 3 = .lost ∧
      lab.plan.phase.generator = true) ∧
    (ignores labMains .panel = false ∧ labMains.Settled ∧ labMains.role 3 = .lost ∧
      labMains.plan.phase.generator = false ∧ labMains.role 0 = .free) ∧
    (ignores labUnavailable .panel = false ∧ labUnavailable.role 2 = .unavailable ∧
      (labUnavailable.car 2).link = .up ∧ (labUnavailable.car 2).available = true ∧
      labUnavailable.Consistent ∧ labUnavailable.RecordsSound ∧ labUnavailable.Settled) ∧
    (ignores labExcluded .panel = false ∧ (labExcluded.car 2).included = false ∧
      labExcluded.Settled) ∧
    (ignores labFailed .panel = false ∧ labFailed.role 2 = .held ∧
      (labFailed.car 2).recallFailed = true ∧ labFailed.Consistent ∧ labFailed.RecordsSound ∧
      labFailed.Settled) := by
  and_intros <;> first
    | exact lab_settled | exact lab_consistent | exact labMains_settled | decide
    | (constructor <;> decide)

theorem witness_ReleaseCarCompletes :
    ignores lab .panel = false ∧ lab.Settled ∧ lab.configured 11 = false ∧ lab.role 2 ≠ .lost ∧
    lab.configured 3 = true ∧ lab.role 3 = .lost ∧ lab.Consistent ∧ lab.plan.phase.generator = true ∧
    labMains.role 3 = .lost ∧ labMains.plan.phase.generator = false := by
  and_intros <;> first | exact lab_settled | exact lab_consistent | decide

/-- A phase, a store state and an image for each row: the tower's table, which breaks none of R155's
conditions (four straps, four cars), and an image that breaks some. -/
theorem witness_SiteWriteAnswered :
    ignores lab .panel = false ∧ lab.plan.phase = .service ∧ labTable.toList.length = 35 ∧
    labWriting.plan.phase = .mains ∧ labWriting.store.state ≠ .idle ∧ labMains.store.state = .idle ∧
    labMains.store.carsel = 3 ∧ labTable.toList.take 6 = [1, 4, 0x10, 0x30, 0x31, 0x31] ∧
    labTable.toList.drop 14 = [0, 0x01, 0x90, 0x02, 0xBC, 0, 0, 0, 0, 1, 2, 1,
      0x29, 0x24, 0x27, 0x41, 0x60, 0x22, 0x61, 0x2E, 1] ∧
    ((List.replicate 35 0 : List Byte).getD 0 0).toNat ≠ 1 := by
  decide

/-- A car that waits in a generator phase, one on mains, and one LOST whose link is UP again (log 14). -/
theorem witness_CarLinkLost :
    ((lab.car 1).link = .up ∧ (lab.car 1).linkTimer.isSome = true ∧ lab.plan.phase.generator = true ∧
      lab.Consistent ∧ (lab.trip 1).state = .waiting) ∧
    ((labMains.car 0).link = .up ∧ (labMains.car 0).linkTimer.isSome = true ∧
      labMains.plan.phase.generator = false ∧ labMains.Settled) ∧
    (let s := lab.updCar 3 (fun r => { r with link := .up, linkTimer := some ⟨0, 30⟩ });
      (s.car 3).link = .up ∧ (s.car 3).linkTimer.isSome = true ∧ s.role 3 = .lost ∧
      (s.car 3).preLoss = some .service ∧ s.Consistent) := by
  and_intros <;> first
    | exact lab_consistent | exact labMains_settled | decide | (constructor <;> decide)

theorem witness_MasterLinksLost :
    lab.supplyLink.link = .up ∧ lab.supplyLink.timer.isSome = true ∧ lab.panelLink.link = .up ∧
    lab.panelLink.timer.isSome = true := by decide

theorem witness_SettleExpires :
    labOutage.Consistent ∧ labOutage.plan.phase = .outage ∧ labOutage.plan.settleTimer.isSome = true ∧
    labOutage.role 0 = .held ∧ (labOutage.car 0).recallFailed = false :=
  ⟨labOutage_consistent, by decide⟩

theorem witness_WindowsAndReturnExpire :
    labReturn.plan.phase = .returning ∧ labReturn.plan.clearance = .notClear ∧
    labReturn.plan.returnTimer.isSome = true ∧ labStart.gate.state = .carStart ∧
    labStart.gate.holder = .car 0 ∧ labStart.gate.startTimer.isSome = true ∧
    labPanel.gate.state = .panelStart ∧ labPanel.gate.panelTimer.isSome = true := by decide

/-- A car that waits, and one in motion; and one LOST with its trip NONE. -/
theorem witness_RecallSupervisionExpires :
    lab.Consistent ∧ lab.inRecall 1 = true ∧ (lab.car 1).recallTimer.isSome = true ∧
    (lab.trip 1).state.moving = false ∧ labLanding.Consistent ∧ labLanding.inRecall 1 = true ∧
    (labLanding.car 1).recallTimer.isSome = true ∧ (labLanding.trip 1).state.moving = true ∧
    (labLostIdle .recall).Consistent ∧ (labLostIdle .recall).inRecall 1 = true ∧
    ((labLostIdle .recall).car 1).recallTimer.isSome = true ∧ (labLostIdle .recall).role 1 = .lost ∧
    ((labLostIdle .recall).trip 1).state.moving = false := by
  and_intros <;> first
    | exact lab_consistent | exact labLanding_consistent | decide | (constructor <;> decide)

/-- A window that runs in a busy gate, and in an OPEN one with a claim pending; a head of some age. -/
theorem witness_FairnessAndHeadAgeExpire :
    (let s : State := { lab with gate := { lab.gate with fairness := some ⟨0, 150⟩ } };
      s.Settled ∧ s.gate.fairness.isSome = true ∧ s.gate.state ≠ .opened ∧
      s.queue.headTimer.isSome = true) ∧
    (let s : State := { labOpen with gate := { labOpen.gate with
        fairness := some ⟨0, 150⟩, pendingClaim := some 0 } };
      s.Settled ∧ s.gate.fairness.isSome = true ∧ s.gate.state = .opened ∧
      s.gate.pendingClaim = some 0) ∧
    (let s : State := { labOpen with
        supplyLink := ⟨.lost, none⟩, gate := { labOpen.gate with fairness := some ⟨0, 150⟩ } };
      s.Settled ∧ s.gate.fairness.isSome = true ∧ s.gate.state = .opened ∧
      s.gate.pendingClaim = none) :=
  ⟨⟨(by constructor <;> decide), by decide⟩, ⟨(by constructor <;> decide), by decide⟩,
    ⟨(by constructor <;> decide), by decide⟩⟩

theorem witness_ShedSupervisionExpires : labShed.Sound ∧ shedTimerRuns labShed 0 = true :=
  ⟨labShed_sound, by decide⟩

/-- In MAINS with SINGLE inactive and active, in a generator phase, and with car 3 newly configured or newly
absent. -/
theorem witness_StoreProgrammingEnds :
    (labWriting.store.state = .programming ∧ labWriting.store.writing = some labTable ∧
      labWriting.Settled ∧ labWriting.plan.phase = .mains ∧ labWriting.store.single = false) ∧
    (let s : State := { labWriting with store := { labWriting.store with single := true } };
      s.store.state = .programming ∧ s.Settled ∧ s.store.single = true) ∧
    (let s : State := { lab with store := labWriting.store };
      s.store.state = .programming ∧ s.Settled ∧ s.plan.phase = .service) ∧
    (let s : State := { labWriting with store := { labWriting.store with active := labTable.set 1 3 } };
      s.Settled ∧ s.configured 3 = false ∧ 3 < carCount labTable) ∧
    (labWriting.configured 3 = true ∧ carCount (labTable.set 1 3) = 3) := by
  and_intros <;> first | decide | (constructor <;> decide)

/-- A write in progress; a store that matches and validates, and a blank one. -/
theorem witness_ResetAndRelease :
    labWriting.store.state = .programming ∧ labWriting.store.writing = some labTable ∧
    lab.store.state ≠ .programming ∧ NvStore.blank.matching = false ∧
    (NvStore.formed labTable).matching = true ∧ validImage labTable (strappedCount 3) = true := by
  and_intros <;> first
    | exact NvStore.spoiled_matching .. | exact NvStore.formed_matching _ | decide

/-- A sound state whose step runs a command; the hypotheses of every statement that a step keeps a part of
soundness. -/
theorem witness_invariants : ∃ t, lab.Sound ∧ step lab = .next t := ⟨_, lab_sound, rfl⟩

/-- A TRIP that is granted at once. -/
theorem witness_GrantsAreSafe :
    ∃ t, labOpen.Sound ∧ (Instr.trip 1 (.opened [1, 80])).wellFormed = true ∧
      exec (.trip 1 (.opened [1, 80])) labOpen = .next t ∧ (labOpen.trip 1).state ≠ .starting ∧
      (t.trip 1).state = .starting :=
  ⟨_, labOpen_sound, by decide, rfl, by decide, by decide +kernel⟩

theorem witness_CarPortsStayApart :
    ∃ t, (∀ p q, (lab.port p).request = some q → q.req ∈ requestsOf p) ∧
      senderOf (.stopped 0) = some (.car 0) ∧ exec (.stopped 0) lab = .next t :=
  ⟨_, lab_sound.ports.own, by decide, rfl⟩

theorem witness_SupplyAndPanelStayApart :
    ∃ t u, (∀ p q, (lab.port p).request = some q → q.req ∈ requestsOf p) ∧
      (∀ p q, (labPanel.port p).request = some q → q.req ∈ requestsOf p) ∧ senderOf (.supply (.opened [5])) = some .supply ∧ exec (.supply (.opened [5])) lab = .next t ∧
      lab.store.state ≠ .awaitingActivation ∧ senderOf .gateRelease = some .panel ∧
      exec .gateRelease labPanel = .next u :=
  ⟨_, _, lab_sound.ports.own, (portsSound_of (s := labPanel) rfl).own, by decide, rfl, by decide,
    by decide, rfl⟩

end Sys2Proof.Tests
end

