-- ==== Sys2Proof/Proofs/TimeCodes.lean ====
section
/-!
PROOFS. Time codes (R1): the fields of the unit as remainders and quotients, the span, and O1.
-/

namespace Sys2Proof.Machine

theorem timeUnit_pos (n : Nat) : 0 < timeUnit n := by
  unfold timeUnit
  split <;> decide

theorem timeUnit_le (n : Nat) : timeUnit n ≤ 600 := by
  unfold timeUnit
  split <;> decide

/-- The bit fields of a time code (R148) as arithmetic on the unit's value. -/
theorem timeCode_eq (u : Byte) :
    timeCode u = (u.toNat % 32 + 1) * timeUnit (u.toNat / 32 % 4) := by
  simp [timeCode, BitVec.extractLsb'_toNat, Nat.shiftRight_eq_div_pow]

theorem timeCode_pos (u : Byte) : 0 < timeCode u := by
  rw [timeCode_eq]
  exact Nat.mul_pos (Nat.succ_pos _) (timeUnit_pos _)

/-- No time code names more than 32 min: the largest count with the largest unit (R1). -/
theorem timeCode_le (u : Byte) : timeCode u ≤ 19200 := by
  have hcount : u.toNat % 32 + 1 ≤ 32 := Nat.mod_lt _ (by decide)
  calc timeCode u = (u.toNat % 32 + 1) * timeUnit (u.toNat / 32 % 4) := timeCode_eq u
    _ ≤ 32 * 600 := Nat.mul_le_mul hcount (timeUnit_le _)

/-- Settles O1: the fields read as arithmetic, the bounds of count and unit, and both worked codes. -/
theorem timeCodes : Obligations.TimeCodes :=
  ⟨timeCode_eq, fun u => ⟨timeCode_pos u, timeCode_le u⟩, by decide, by decide⟩

end Sys2Proof.Machine
end

section
/-!
PROOFS. The Demand Calculator (R2 to R13): division rounded up, the bounds of the running magnitude, of the
net running power and of the three stored figures, and O2, O3 and O4.
-/

namespace Sys2Proof.Machine

/-! ## Division rounded up (R5) -/

theorem ceilDiv_le_iff {a b q : Nat} (hb : 0 < b) : ceilDiv a b ≤ q ↔ a ≤ q * b := by
  rw [Nat.mul_comm]
  exact ceilDiv_le_iff_le_mul hb

theorem le_ceilDiv_mul (a : Nat) {b : Nat} (hb : 0 < b) : a ≤ ceilDiv a b * b :=
  (ceilDiv_le_iff hb).1 (Nat.le_refl _)

theorem ceilDiv_mono {a a' b : Nat} (hb : 0 < b) (h : a ≤ a') : ceilDiv a b ≤ ceilDiv a' b :=
  (ceilDiv_le_iff hb).2 (Nat.le_trans h (le_ceilDiv_mul a' hb))

theorem ceilDiv_pos {a b : Nat} (hb : 0 < b) (ha : 0 < a) : 0 < ceilDiv a b :=
  Nat.pos_of_mul_pos_right (Nat.lt_of_lt_of_le ha (le_ceilDiv_mul a hb))

theorem ceilDiv_zero_left {b : Nat} (hb : 0 < b) : ceilDiv 0 b = 0 :=
  Nat.le_zero.1 ((ceilDiv_le_iff hb).2 (Nat.zero_le _))

/-- Rounding up does nothing to a multiple. -/
theorem mul_ceilDiv_cancel (a : Nat) {b : Nat} (hb : 0 < b) : ceilDiv (a * b) b = a :=
  Nat.le_antisymm ((ceilDiv_le_iff hb).2 (Nat.le_refl _))
    (Nat.le_of_mul_le_mul_right (le_ceilDiv_mul (a * b) hb) hb)

/-! ## The two arguments (R3, R4, R6) -/

theorem tripLoad_le (code : Byte) : tripLoad code ≤ 125 := Nat.min_le_left _ _

/-- A code that names neither direction gives a trip that gravity opposes (R3). -/
theorem effImbalance_nonneg_of_unknown {code : Byte} (hup : code ≠ 0x01) (hdown : code ≠ 0x02)
    (d : Int) : 0 ≤ effImbalance (tripDirection code d) d := by
  have unknown : directionOf code = none := by
    rw [directionOf, if_neg hup, if_neg hdown]
  unfold tripDirection
  rw [unknown]
  dsimp only
  split
  · assumption
  · rename_i negative
    exact Int.neg_nonneg_of_nonpos (Int.le_of_lt (Int.not_le.1 negative))

/-- The effective imbalances that a profile in range and a clamped load can give (R2, R4, R6). -/
structure Profile.Meets (p : Profile) (e : Int) : Prop where
  inRange : p.InRange
  up : e ≤ 125 - p.b
  down : -e ≤ 125 - p.b

theorem effImbalance_meets {p : Profile} (hp : p.InRange) {load : Nat} (hload : load ≤ 125)
    (dir : Direction) : p.Meets (effImbalance dir (imbalance p load)) := by
  obtain ⟨hb30, hb60⟩ := hp.b
  constructor
  case inRange => exact hp
  all_goals
    cases dir <;> simp only [effImbalance, imbalance] <;> omega

/-! ## The running magnitude (R7, R8) -/

/-- Pr × |E| divided by 100 − B, rounded up: the magnitude before its limit (R7). -/
def fullMagnitude (p : Profile) (e : Int) : Nat := ceilDiv (p.pr * e.natAbs) (100 - p.b)

/-- 3 × Pr / 2, rounded up: what regeneration is limited to (R8). -/
def regenLimit (p : Profile) : Nat := ceilDiv (3 * p.pr) 2

theorem runningMagnitude_of_nonneg {p : Profile} {e : Int} (he : 0 ≤ e) :
    runningMagnitude p e = fullMagnitude p e := by
  rw [runningMagnitude, if_neg (Int.not_lt.2 he), fullMagnitude]

theorem runningMagnitude_of_neg {p : Profile} {e : Int} (he : e < 0) :
    runningMagnitude p e = min (fullMagnitude p e) (regenLimit p) := by
  rw [runningMagnitude, if_pos he, fullMagnitude, regenLimit]

theorem runningMagnitude_le_full (p : Profile) (e : Int) :
    runningMagnitude p e ≤ fullMagnitude p e := by
  rcases Int.lt_or_le e 0 with he | he
  · rw [runningMagnitude_of_neg he]; exact Nat.min_le_left _ _
  · rw [runningMagnitude_of_nonneg he]

theorem runningMagnitude_le_limit {p : Profile} {e : Int} (he : e < 0) :
    runningMagnitude p e ≤ regenLimit p := by
  rw [runningMagnitude_of_neg he]; exact Nat.min_le_right _ _

section
variable {p : Profile} (hp : p.InRange)
include hp

theorem balance_room : 40 ≤ 100 - p.b ∧ 0 < 100 - p.b := by
  have := hp.b
  omega

theorem regenLimit_bounds : 8 ≤ regenLimit p ∧ regenLimit p ≤ 600 := by
  have := hp.pr
  unfold regenLimit ceilDiv
  omega

theorem fullMagnitude_zero : fullMagnitude p 0 = 0 := by
  rw [fullMagnitude, Int.natAbs_zero, Nat.mul_zero, ceilDiv_zero_left (balance_room hp).2]

/-- A full load raised takes Pr: it is what Pr is measured with (R7). -/
theorem fullMagnitude_full_load : fullMagnitude p (effImbalance .up (imbalance p 100)) = p.pr := by
  have e : (effImbalance .up (imbalance p 100)).natAbs = 100 - p.b := by
    have := hp.b
    simp only [effImbalance, imbalance]
    omega
  rw [fullMagnitude, e, mul_ceilDiv_cancel _ (balance_room hp).2]

theorem fullMagnitude_mono {e e' : Int} (h : e.natAbs ≤ e'.natAbs) :
    fullMagnitude p e ≤ fullMagnitude p e' :=
  ceilDiv_mono (balance_room hp).2 (Nat.mul_le_mul_left _ h)

theorem fullMagnitude_pos {e : Int} (he : e ≠ 0) : 0 < fullMagnitude p e :=
  ceilDiv_pos (balance_room hp).2
    (Nat.mul_pos (Nat.lt_of_lt_of_le (by decide) hp.pr.1) (Int.natAbs_pos.2 he))

/-- The limit binds only beyond one and a half times the imbalance of a full load (R8). -/
theorem regenLimit_lt_full {e : Int} (h : regenLimit p < fullMagnitude p e) :
    3 * (100 - p.b) < 2 * e.natAbs := by
  have room := (balance_room hp).2
  have beyond : regenLimit p * (100 - p.b) < p.pr * e.natAbs := by
    by_contra le
    exact Nat.not_le.2 h ((ceilDiv_le_iff room).2 (Nat.not_lt.1 le))
  have half : 3 * p.pr ≤ regenLimit p * 2 := le_ceilDiv_mul _ (by decide)
  have wide : p.pr * (3 * (100 - p.b)) < p.pr * (2 * e.natAbs) := by
    calc p.pr * (3 * (100 - p.b)) = 3 * p.pr * (100 - p.b) := by ring
      _ ≤ regenLimit p * 2 * (100 - p.b) := Nat.mul_le_mul_right _ half
      _ = 2 * (regenLimit p * (100 - p.b)) := by ring
      _ < 2 * (p.pr * e.natAbs) := Nat.mul_lt_mul_of_pos_left beyond (by decide)
      _ = p.pr * (2 * e.natAbs) := by ring
  exact Nat.lt_of_mul_lt_mul_left wide

/-- The limit binds only for an overloaded car that is balanced heavy and goes DOWN (R8). -/
theorem limit_binds {load : Nat} (hload : load ≤ 125) {dir : Direction}
    (h : runningMagnitude p (effImbalance dir (imbalance p load)) <
      fullMagnitude p (effImbalance dir (imbalance p load))) :
    dir = .down ∧ 100 < load ∧ 50 < p.b := by
  have negative : effImbalance dir (imbalance p load) < 0 := by
    by_contra he
    exact Nat.ne_of_lt h (runningMagnitude_of_nonneg (Int.not_lt.1 he))
  rw [runningMagnitude_of_neg negative] at h
  have wide := regenLimit_lt_full hp (e := effImbalance dir (imbalance p load)) (by omega)
  obtain ⟨hb30, hb60⟩ := hp.b
  cases dir with
  | up =>
    simp only [effImbalance, imbalance] at negative wide
    omega
  | down =>
    simp only [effImbalance, imbalance] at negative wide
    refine ⟨rfl, ?_⟩
    omega

end

/-- The largest magnitude is that of Pr 400 and B 60 at a load of 125 going UP (R8). -/
theorem runningMagnitude_le {p : Profile} {e : Int} (h : p.Meets e) : runningMagnitude p e ≤ 650 := by
  obtain ⟨hb30, hb60⟩ := h.inRange.b
  have hup := h.up
  have hdown := h.down
  have reach : 400 * e.natAbs ≤ 650 * (100 - p.b) := by omega
  refine Nat.le_trans (runningMagnitude_le_full p e) ?_
  rw [fullMagnitude, ceilDiv_le_iff (balance_room h.inRange).2]
  exact Nat.le_trans (Nat.mul_le_mul_right _ h.inRange.pr.2) reach

/-- Settles O2: rounding up, then the magnitude case by case on the sign of E. -/
theorem runningMagnitude_spec : Obligations.RunningMagnitude := by
  refine ⟨fun a b q hb => ceilDiv_le_iff hb, ?_, ?_, ?_⟩
  · intro p load dir hp hload e full limit
    have meets : p.Meets e := effImbalance_meets hp hload dir
    refine ⟨runningMagnitude_of_nonneg, runningMagnitude_of_neg, ?_, ?_, runningMagnitude_le meets,
      (regenLimit_bounds hp).1, (regenLimit_bounds hp).2, limit_binds hp hload⟩
    · intro he
      rw [he, runningMagnitude_of_nonneg (Int.le_refl 0), fullMagnitude_zero hp]
    · intro hfull hdir
      have raised : e = effImbalance .up (imbalance p 100) := by rw [← hfull, ← hdir]
      have he : 0 ≤ e := by
        have := hp.b
        rw [raised]
        simp only [effImbalance, imbalance]
        omega
      rw [runningMagnitude_of_nonneg he, raised, fullMagnitude_full_load hp]
  · intro p e e' hp he hle
    rw [runningMagnitude_of_nonneg he, runningMagnitude_of_nonneg (Int.le_trans he hle)]
    exact fullMagnitude_mono hp (by omega)
  · intro p hpr hb
    simp only [runningMagnitude, hpr, hb]
    decide

/-! ## The net running power and the kind (R9, R10) -/

theorem lossTerm_bounds {p : Profile} (hp : p.InRange) : 1 ≤ lossTerm p ∧ lossTerm p ≤ 50 := by
  have := hp.pr
  unfold lossTerm ceilDiv
  omega

theorem netRunning_of_pos {p : Profile} {e : Int} (he : 0 < e) :
    netRunning p e = lossTerm p + runningMagnitude p e := if_pos he

theorem netRunning_of_nonpos {p : Profile} {e : Int} (he : e ≤ 0) :
    netRunning p e = lossTerm p - runningMagnitude p e := if_neg (Int.not_lt.2 he)

theorem netRunning_nonneg {p : Profile} {e : Int} (hp : p.InRange) (he : 0 ≤ e) :
    0 ≤ netRunning p e := by
  rcases Int.lt_or_eq_of_le he with pos | zero
  · rw [netRunning_of_pos pos]; omega
  · subst zero
    rw [netRunning_of_nonpos (Int.le_refl 0), runningMagnitude_of_nonneg (Int.le_refl 0),
      fullMagnitude_zero hp]
    omega

/-- No trip runs on more than the largest loss term and the largest magnitude together (R13). -/
theorem netRunning_le {p : Profile} {e : Int} (h : p.Meets e) : netRunning p e ≤ 700 := by
  have hK := lossTerm_bounds h.inRange
  have hP := runningMagnitude_le h
  rcases Int.lt_or_le 0 e with he | he
  · rw [netRunning_of_pos he]; omega
  · rw [netRunning_of_nonpos he]; omega

/-- A trip that gravity helps runs on less than the loss term (R10). -/
theorem netRunning_lt_loss {p : Profile} {e : Int} (hp : p.InRange) (he : e < 0) :
    netRunning p e < lossTerm p := by
  have full := fullMagnitude_pos hp (Int.ne_of_lt he)
  have limit := (regenLimit_bounds hp).1
  rw [netRunning_of_nonpos (Int.le_of_lt he), runningMagnitude_of_neg he]
  omega

/-- What a trip gives back before the return factor is at most the regeneration limit less the loss term
(R13). -/
theorem grossRegen_le {p : Profile} {e : Int} (hp : p.InRange) :
    -netRunning p e ≤ regenLimit p - lossTerm p := by
  rcases Int.lt_or_le e 0 with he | he
  · have := runningMagnitude_le_limit (p := p) he
    rw [netRunning_of_nonpos (Int.le_of_lt he)]
    omega
  · have := netRunning_nonneg hp he
    have least := (regenLimit_bounds hp).1
    have loss := lossTerm_bounds hp
    unfold regenLimit lossTerm ceilDiv at *
    omega

theorem regenLimit_sub_loss {p : Profile} (hp : p.InRange) :
    (regenLimit p : Int) - lossTerm p ≤ 550 ∧
    (p.pr < 400 → (regenLimit p : Int) - lossTerm p < 550) := by
  have := hp.pr
  unfold regenLimit lossTerm ceilDiv
  omega

theorem grossRegen_le_550 {p : Profile} {e : Int} (hp : p.InRange) : -netRunning p e ≤ 550 :=
  Int.le_trans (grossRegen_le hp) (regenLimit_sub_loss hp).1

/-! ## The start demand and the return credit (R11, R12) -/

section
variable {p : Profile} (hp : p.InRange)
include hp

/-- The start factor F / 8 is one at least, so a start takes at least what it is formed from (R11). -/
theorem le_startDemand (n' : Int) : (max n' (lossTerm p : Int)).toNat ≤ startDemand p n' := by
  have whole := le_ceilDiv_mul ((max n' (lossTerm p : Int)).toNat * p.f) (b := 8) (by decide)
  have factor := Nat.mul_le_mul_left (max n' (lossTerm p : Int)).toNat hp.f.1
  exact Nat.le_of_mul_le_mul_right (Nat.le_trans factor whole) (by decide)

theorem lossTerm_le_startDemand (n' : Int) : lossTerm p ≤ startDemand p n' :=
  Nat.le_trans (by omega) (le_startDemand hp n')

theorem toNat_le_startDemand (n' : Int) : n'.toNat ≤ startDemand p n' :=
  Nat.le_trans (by omega) (le_startDemand hp n')

theorem startDemand_le {n' : Int} (h : n' ≤ 700) : startDemand p n' ≤ 2800 := by
  have hK := lossTerm_bounds hp
  have base : (max n' (lossTerm p : Int)).toNat ≤ 700 := by omega
  have top : (max n' (lossTerm p : Int)).toNat * p.f ≤ 700 * 32 := Nat.mul_le_mul base hp.f.2
  exact (ceilDiv_le_iff (by decide)).2 top

/-- The return factor G / 16 is one at most, so no more is credited than is given back (R12). -/
theorem returnCredit_le (n' : Int) : returnCredit p n' ≤ (-n').toNat := by
  unfold returnCredit
  split
  · exact Nat.div_le_of_le_mul (Nat.mul_comm _ 16 ▸ Nat.mul_le_mul_left _ hp.g)
  · exact Nat.zero_le _

end

theorem returnCredit_of_nonneg {p : Profile} {n' : Int} (h : 0 ≤ n') : returnCredit p n' = 0 :=
  if_neg (Int.not_lt.2 h)

theorem returnCredit_of_neg {p : Profile} {n' : Int} (h : n' < 0) :
    returnCredit p n' = (-n').toNat * p.g / 16 := if_pos h

/-- A trip that gravity does not oppose starts on the loss term's floor alone (R11). -/
theorem startDemand_of_nonpos {p : Profile} {e : Int} (he : e ≤ 0) :
    startDemand p (netRunning p e) = ceilDiv (lossTerm p * p.f) 8 := by
  have floor : max (netRunning p e) (lossTerm p : Int) = lossTerm p := by
    rw [netRunning_of_nonpos he]
    omega
  rw [startDemand, floor, Int.toNat_natCast]

/-! ## A computation (section 1.3) -/

/-- The effective imbalance a computation works with (R6). -/
def demandImbalance (p : Profile) (dirCode loadCode : Byte) : Int :=
  effImbalance (demandOf p dirCode loadCode).direction
    (imbalance p (demandOf p dirCode loadCode).load)

section
variable (p : Profile) (dirCode loadCode : Byte)

theorem demandOf_s : (demandOf p dirCode loadCode).s =
    startDemand p (netRunning p (demandImbalance p dirCode loadCode)) := rfl

theorem demandOf_n : (demandOf p dirCode loadCode).n =
    (netRunning p (demandImbalance p dirCode loadCode)).toNat := rfl

theorem demandOf_ret : (demandOf p dirCode loadCode).ret =
    returnCredit p (netRunning p (demandImbalance p dirCode loadCode)) := rfl

variable {p}

theorem demandImbalance_meets (hp : p.InRange) : p.Meets (demandImbalance p dirCode loadCode) :=
  effImbalance_meets hp (tripLoad_le loadCode) _

variable {dirCode loadCode}

theorem demandOf_motoring (h : 0 ≤ netRunning p (demandImbalance p dirCode loadCode)) :
    (demandOf p dirCode loadCode).kind = .motoring ∧ (demandOf p dirCode loadCode).ret = 0 :=
  ⟨if_neg (Int.not_lt.2 h), returnCredit_of_nonneg h⟩

theorem demandOf_regen (h : netRunning p (demandImbalance p dirCode loadCode) < 0) :
    (demandOf p dirCode loadCode).kind = .regen ∧ (demandOf p dirCode loadCode).n = 0 :=
  ⟨if_pos h, Int.toNat_of_nonpos (Int.le_of_lt h)⟩

end

/-- A computation looks at the four electrical fields of the profile alone (section 1.3). -/
theorem demandOf_congr {p q : Profile} (pr : p.pr = q.pr) (b : p.b = q.b) (f : p.f = q.f)
    (g : p.g = q.g) : demandOf p = demandOf q := by
  obtain ⟨⟩ := p
  obtain ⟨⟩ := q
  dsimp only at pr b f g
  subst pr b f g
  rfl

/-- Settles O3: the arguments, then the figures by the sign of the net running power. -/
theorem figuresOfATrip : Obligations.FiguresOfATrip := by
  intro p dirCode loadCode hp d e k net
  have loss : lossTerm p = k := rfl
  have hnet : netRunning p e = net := rfl
  refine ⟨rfl, fun h => by subst h; rfl, fun h => by subst h; rfl, fun hup hdown => ?_,
    (lossTerm_bounds hp).1, (lossTerm_bounds hp).2, fun h => ?_, fun h => ?_, fun he h => ?_,
    rfl, startDemand_of_nonpos⟩
  · have he : 0 ≤ e := effImbalance_nonneg_of_unknown hup hdown _
    exact ⟨he, demandOf_motoring (netRunning_nonneg hp he)⟩
  · obtain ⟨kind, ret⟩ := demandOf_motoring (p := p) (dirCode := dirCode) (loadCode := loadCode) h
    exact ⟨kind, Int.toNat_of_nonneg h, ret⟩
  · obtain ⟨kind, n⟩ := demandOf_regen (p := p) (dirCode := dirCode) (loadCode := loadCode) h
    have ret : d.ret = (-net).toNat * p.g / 16 := returnCredit_of_neg h
    refine ⟨kind, n, grossRegen_le_550 hp, ret, fun hg => ?_, fun hg => ?_⟩
    · rw [ret, hg, Nat.mul_zero, Nat.zero_div]
    · rw [ret, hg, Nat.mul_div_cancel _ (by decide)]
      omega
  · have below := netRunning_lt_loss hp he
    have n : d.n = net.toNat := rfl
    omega

/-- The figures of every computation lie in the ranges of section 1.1 (R13). -/
theorem demandOf_bounds {p : Profile} (hp : p.InRange) (dirCode loadCode : Byte) :
    (demandOf p dirCode loadCode).s ≤ 2800 ∧
    (demandOf p dirCode loadCode).n ≤ (demandOf p dirCode loadCode).s ∧
    (demandOf p dirCode loadCode).n ≤ 700 ∧ (demandOf p dirCode loadCode).ret ≤ 550 := by
  have net := netRunning_le (demandImbalance_meets dirCode loadCode hp)
  have gross := grossRegen_le_550 (e := demandImbalance p dirCode loadCode) hp
  have credit := returnCredit_le hp (netRunning p (demandImbalance p dirCode loadCode))
  rw [demandOf_s, demandOf_n, demandOf_ret]
  exact ⟨startDemand_le hp net, toNat_le_startDemand hp _, by omega, by omega⟩

/-- Settles O4: the bounds of R13, and its table of limit cases evaluated. -/
theorem demandBounds : Obligations.DemandBounds := by
  refine ⟨?_, ?_, ?_, ?_⟩
  · intro p dirCode loadCode hp d q
    obtain ⟨sMax, nStart, nMax, retMax⟩ := demandOf_bounds hp dirCode loadCode
    have floor : lossTerm p ≤ d.s := lossTerm_le_startDemand hp _
    have credit : d.ret ≤ q.toNat := returnCredit_le hp _
    have gross : q ≤ (regenLimit p : Int) - lossTerm p := grossRegen_le hp
    exact ⟨Nat.le_trans (lossTerm_bounds hp).1 floor, sMax, nStart, nMax, retMax, by omega, floor,
      gross, fun small => Int.lt_of_le_of_lt gross ((regenLimit_sub_loss hp).2 small)⟩
  all_goals
    intro p hf hg hpr hb
    rw [demandOf_congr (p := p) (q := ⟨p.pr, p.b, p.f, 0, p.g, 1, 1⟩) rfl rfl rfl rfl, hf, hg, hpr, hb]
    decide

end Sys2Proof.Machine
end

section
/-!
PROOFS. The ranges of R2 and of sections 1.1 and 2.1. Which writes touch a ranged value and why each stays
within its range; that every other operation of the blocks leaves those values alone; and O50, that every step
keeps the ranges. The lemmas follow the order of the model's files.
-/

namespace Sys2Proof.Machine

/-! ## What the ranges speak of -/

/-- The stored figures of a trip, as a computation forms them (section 1.1). -/
def Trip.demand (t : Trip) : Demand := t.figures.demand

/-- The ranged values of a record: its profile and the figures of its trip. -/
def CarRecord.magnitudes (r : CarRecord) : Profile × Demand := (r.profile, r.trip.demand)

/-- The parts of the state that hold a ranged value: the car records, and what masters gave the account. -/
def State.ranged (s : State) : Vector CarRecord 12 × (Nat × Nat × Nat × Vector (Option Nat) 8) :=
  (s.cars, s.account.limits)

/-- A record's profile and trip are in range. -/
structure CarRecord.InRange (r : CarRecord) : Prop where
  profile : r.profile.InRange
  trip : r.trip.InRange

/-- Whether a trip is in range is a matter of its figures alone. -/
theorem Trip.InRange.of_demand {t u : Trip} (h : t.InRange) (same : u.demand = t.demand) :
    u.InRange := by
  simp only [Trip.demand, Trip.figures, Demand.mk.injEq] at same
  obtain ⟨-, load, kind, start, run, ret⟩ := same
  constructor
  · rw [load]; exact h.load
  · rw [start]; exact h.s
  · rw [run, start]; exact h.n
  · rw [ret]; exact h.ret
  · rw [kind, run]; exact h.regen
  · rw [kind, ret]; exact h.motoring

theorem CarRecord.InRange.of_magnitudes {r q : CarRecord} (h : r.InRange)
    (same : q.magnitudes = r.magnitudes) : q.InRange := by
  simp only [CarRecord.magnitudes, Prod.mk.injEq] at same
  obtain ⟨profile, demand⟩ := same
  exact ⟨profile ▸ h.profile, h.trip.of_demand demand⟩

/-- Whether the account is in range is a matter of the values its masters gave it. -/
theorem Account.InRange.of_limits {a b : Account} (h : a.InRange) (same : b.limits = a.limits) :
    b.InRange := by
  simp only [Account.limits, Prod.mk.injEq] at same
  obtain ⟨offer, stepLimit, absorb, reserves⟩ := same
  constructor
  · rw [offer]; exact h.offer
  · rw [stepLimit]; exact h.stepLimit
  · rw [absorb]; exact h.absorb
  · rw [reserves]; exact h.reserves

theorem State.inRange_iff {s : State} :
    s.InRange ↔ (∀ c, (s.car c).InRange) ∧ s.account.InRange :=
  ⟨fun h => ⟨fun c => ⟨h.profile c, h.trip c⟩, h.account⟩,
    fun h => ⟨fun c => (h.1 c).profile, fun c => (h.1 c).trip, h.2⟩⟩

theorem State.InRange.car {s : State} (h : s.InRange) (c : CarIx) : (s.car c).InRange :=
  (State.inRange_iff.1 h).1 c

/-! ## Updates that leave the ranged values alone -/

section
variable {s t : State}

/-- Parts that hold no ranged value may change freely. -/
theorem State.InRange.parts (h : s.InRange) (same : t.ranged = s.ranged) : t.InRange := by
  obtain ⟨cars, limits⟩ := Prod.mk.inj same
  refine State.inRange_iff.2 ⟨fun c => ?_, h.account.of_limits limits⟩
  rw [State.car, cars]
  exact h.car c

/-- The part's own decisions move no ranged value (section 3.1). -/
theorem State.InRange.only (h : s.InRange) (decided : OnlyDecisions s t) : t.InRange := by
  refine State.inRange_iff.2 ⟨fun c => (h.car c).of_magnitudes ?_, h.account.of_limits decided.limits⟩
  have profile : (t.car c).profile = (s.car c).profile :=
    congrArg CarInputs.profile (decided.cars c)
  have demand : (t.trip c).demand = (s.trip c).demand :=
    congrArg TripFigures.demand (decided.figures c)
  exact Prod.ext profile demand

theorem State.InRange.updCar_of {c : CarIx} {f : CarRecord → CarRecord} (h : s.InRange)
    (changed : (f (s.car c)).InRange) : (s.updCar c f).InRange := by
  refine State.inRange_iff.2 ⟨fun d => ?_, h.account⟩
  rw [State.updCar_car]
  split
  · rename_i same; rw [same]; exact changed
  · exact h.car d

theorem State.InRange.updCar {c : CarIx} {f : CarRecord → CarRecord} (h : s.InRange)
    (keeps : ∀ r, (f r).magnitudes = r.magnitudes) :
    (s.updCar c f).InRange :=
  h.updCar_of ((h.car c).of_magnitudes (keeps _))

theorem State.InRange.updTrip {c : CarIx} {f : Trip → Trip} (h : s.InRange)
    (keeps : ∀ t, (f t).demand = t.demand) : (s.updTrip c f).InRange :=
  h.updCar (fun r => Prod.ext rfl (keeps r.trip))

theorem State.InRange.updAllCars {f : CarIx → CarRecord → CarRecord} (h : s.InRange)
    (keeps : ∀ c r, CarRecord.InRange r → (f c r).InRange) : (s.updAllCars f).InRange := by
  refine State.inRange_iff.2 ⟨fun c => ?_, h.account⟩
  rw [State.updAllCars_car]
  exact keeps c _ (h.car c)

theorem State.InRange.updPort {p : Port} {f : PortIf → PortIf} (h : s.InRange) :
    (s.updPort p f).InRange := h.parts (by rfl)

theorem State.InRange.noticeCar {c : CarIx} {k : CarNotice} (h : s.InRange) :
    (s.noticeCar c k).InRange := h.only (.noticeCar s c k)

theorem State.InRange.noticeSupply {k : SupplyNotice} (h : s.InRange) :
    (s.noticeSupply k).InRange := h.parts (by rfl)

theorem State.InRange.noticePanel {k : PanelNotice} (h : s.InRange) :
    (s.noticePanel k).InRange := h.parts (by rfl)

/-- What every step of a walk over a list keeps, the walk keeps. -/
theorem State.InRange.foldl {α : Type} {f : State → α → State} (h : s.InRange)
    (keeps : ∀ t a, t.InRange → (f t a).InRange) (l : List α) : (l.foldl f s).InRange :=
  List.foldlRecOn l f h (fun t ht a _ => keeps t a ht)

theorem eitherOrder_inRange (hs : s.InRange) (ht : t.InRange) : (eitherOrder s t).InRange := by
  obtain ⟨n, e | e⟩ := eitherOrder_cases s t
  · rw [e]; exact hs.parts (by rfl)
  · rw [e]; exact ht.parts (by rfl)

end

/-! ## Writes of a profile, of a trip's figures and of the account -/

theorem Profile.atReset_inRange : Profile.atReset.InRange := by constructor <;> decide

theorem Trip.atReset_inRange : Trip.atReset.InRange := by constructor <;> decide

theorem CarRecord.atReset_inRange (role : Role) : (CarRecord.atReset role).InRange :=
  ⟨Profile.atReset_inRange, Trip.atReset_inRange⟩

theorem Account.atReset_inRange : Account.atReset.InRange := by constructor <;> decide

theorem clamp_bounds {lo hi : Nat} (v : Nat) (h : lo ≤ hi) : lo ≤ clamp lo hi v ∧ clamp lo hi v ≤ hi :=
  ⟨Nat.le_max_left _ _, Nat.max_le.2 ⟨h, Nat.min_le_left _ _⟩⟩

/-- Each latch clamps its field to its range (R45), and a time code names no other duration (R1). -/
theorem latchProfile_inRange {p : Profile} (h : p.InRange) (args : List Byte) :
    (latchProfile args p).InRange := by
  unfold latchProfile
  split
  · exact { h with pr := clamp_bounds _ (by decide) }
  · exact { h with b := clamp_bounds _ (by decide) }
  · exact { h with f := clamp_bounds _ (by decide) }
  · exact { h with a := (clamp_bounds _ (by decide)).2 }
  · exact { h with g := (clamp_bounds _ (by decide)).2 }
  · exact { h with tland := ⟨timeCode_pos _, timeCode_le _⟩ }
  · exact { h with trun := ⟨timeCode_pos _, timeCode_le _⟩ }
  · exact h

/-- A computation's figures are in range, whatever the record held before (R13, R14). -/
theorem Trip.withDemand_inRange {p : Profile} (hp : p.InRange) (t : Trip) (dirCode loadCode : Byte) :
    (t.withDemand (demandOf p dirCode loadCode)).InRange := by
  obtain ⟨sMax, nStart, nMax, retMax⟩ := demandOf_bounds hp dirCode loadCode
  have sign := Int.lt_or_le (netRunning p (demandImbalance p dirCode loadCode)) 0
  refine ⟨tripLoad_le loadCode, sMax, ⟨nMax, nStart⟩, retMax, fun regen => ?_, fun motoring => ?_⟩
  · rcases sign with neg | nonneg
    · exact (demandOf_regen neg).2
    · exact absurd ((demandOf_motoring nonneg).1.symm.trans regen) (by decide)
  · rcases sign with neg | nonneg
    · exact absurd ((demandOf_regen neg).1.symm.trans motoring) (by decide)
    · exact (demandOf_motoring nonneg).2

theorem computeTrip_inRange {s : State} (h : s.InRange) (c : CarIx) (dir load : Byte) :
    (computeTrip c dir load s).InRange := by
  unfold computeTrip State.updTrip
  exact h.updCar_of ⟨h.profile c, Trip.withDemand_inRange (h.profile c) (s.trip c) dir load⟩

/-- Each latch of an OFFER clamps its field (R18). -/
theorem latchOffer_inRange {a : Account} (h : a.InRange) (args : List Byte) :
    (latchOffer args a).InRange := by
  unfold latchOffer
  split
  · exact { h with offer := Nat.min_le_left _ _ }
  · exact { h with stepLimit := Nat.min_le_left _ _ }
  · exact { h with absorb := Nat.min_le_left _ _ }
  · exact h

/-- An entry set to nothing, or to an amount of its range, leaves the account in range (R20, R21). -/
theorem Account.InRange.setReserve {a : Account} (h : a.InRange) (e : EntryIx) {v : Option Nat}
    (hv : v.all (fun n => decide (1 ≤ n ∧ n ≤ 4095)) = true) :
    Account.InRange { a with reserves := a.reserves.set e.val v } := by
  refine { h with reserves := fun d => ?_ }
  by_cases same : e.val = d.val
  · simp only [same, Vector.getElem_set_self]; exact hv
  · simp only [Vector.getElem_set_ne _ _ same]; exact h.reserves d

theorem State.InRange.setReserve {s : State} (h : s.InRange) (e : EntryIx) {v : Option Nat}
    (hv : v.all (fun n => decide (1 ≤ n ∧ n ≤ 4095)) = true) :
    State.InRange { s with account := { s.account with reserves := s.account.reserves.set e.val v } } :=
  State.inRange_iff.2 ⟨h.car, h.account.setReserve e hv⟩

theorem takeReserve_inRange {s : State} (h : s.InRange) (entry : Byte) (amount : Nat) :
    (takeReserve entry amount s).1.InRange := by
  unfold takeReserve
  split
  · exact h
  · rename_i e _
    have amountInRange : (if amount = 0 then none else some (min 4095 amount)).all
        (fun n => decide (1 ≤ n ∧ n ≤ 4095)) = true := by
      split
      · rfl
      · simp only [Option.all_some, decide_eq_true_eq]; omega
    have reserved := h.setReserve e amountInRange
    dsimp only
    split
    · exact reserved.parts (by rfl)
    · exact reserved

/-- Every block's after-reset values are in range, whatever outlives the reset (R152). -/
theorem State.released_inRange (n : NvStore) (carsel : BitVec 2) (single : Bool)
    (ports : Vector PortIf 14) (now freeIx : Nat) (pending : List Instr) :
    (State.released n carsel single ports now freeIx pending).InRange := by
  refine State.inRange_iff.2 ⟨fun c => ?_, Account.atReset_inRange⟩
  simp only [State.released, State.car, carsAtReset, Vector.getElem_ofFn]
  exact CarRecord.atReset_inRange _

section
variable {s : State} {c : CarIx}

/-! ## Leaving the plan, the queue and the gate -/

theorem closeEvent_inRange {k : Cause} {s0 : State} (h : s.InRange) : (closeEvent k s0 s).InRange :=
  h.only (closeEvent_only k s0 s)

theorem leavePlan_inRange (h : s.InRange) : (leavePlan c s).InRange :=
  h.only (leavePlan_only (.refl s) c)

theorem park_inRange (h : s.InRange) : (park c s).InRange := h.only (park_only (.refl s) c)

theorem clearPending_inRange (h : s.InRange) : (clearPending c s).InRange := h.updCar fun _ => by rfl

theorem dropVictim_inRange (h : s.InRange) : (dropVictim c s).InRange := h.parts (by rfl)

theorem makeUnavailable_inRange (h : s.InRange) : (makeUnavailable c s).InRange :=
  clearPending_inRange (leavePlan_inRange (h.updCar fun _ => by rfl))

theorem setEntries_inRange {l : List CarIx} (h : s.InRange) : (setEntries l s).InRange :=
  h.only (setEntries_only (.refl s) l)

theorem removeEntry_inRange (h : s.InRange) : (removeEntry c s).InRange := setEntries_inRange h

theorem dropEntry_inRange {r : DropReason} (h : s.InRange) : (dropEntry c r s).InRange :=
  h.only (dropEntry_only (.refl s) c r)

theorem dropAllEntries_inRange (h : s.InRange) : (dropAllEntries s).InRange :=
  setEntries_inRange (h.foldl (fun _ _ ht => dropEntry_inRange ht) _)

theorem refuseTrip_inRange {r : RefuseReason} (h : s.InRange) : (refuseTrip c r s).1.InRange :=
  (h.updTrip fun _ => by rfl).noticeCar

theorem admitEntry_inRange (h : s.InRange) : (admitEntry c s).InRange := by
  unfold admitEntry
  extract_lets t u
  have waiting : t.InRange := h.updTrip fun _ => by rfl
  have queued : u.InRange := setEntries_inRange waiting
  exact queued.parts (by rfl)

theorem freshTrip_inRange {dir load : Byte} (h : s.InRange) : (freshTrip c dir load s).1.InRange := by
  have computed := computeTrip_inRange h c dir load
  unfold freshTrip
  dsimp only
  split
  · exact refuseTrip_inRange computed
  · exact admitEntry_inRange computed

theorem updateTrip_inRange {dir load : Byte} (h : s.InRange) :
    (updateTrip c dir load s).1.InRange := by
  have computed := computeTrip_inRange h c dir load
  unfold updateTrip
  dsimp only
  split
  · exact refuseTrip_inRange ((removeEntry_inRange computed).updTrip fun _ => by rfl)
  · exact computed

theorem takeTrip_inRange {dir load : Byte} (h : s.InRange) : (takeTrip c dir load s).1.InRange := by
  unfold takeTrip
  split
  · exact h
  · exact h
  · exact refuseTrip_inRange h
  · exact refuseTrip_inRange h
  all_goals
    split
    · exact refuseTrip_inRange h
    · split
      · exact refuseTrip_inRange h
      · exact refuseTrip_inRange h
      · exact updateTrip_inRange h
      · exact freshTrip_inRange h

theorem withdrawTrip_inRange (h : s.InRange) : (withdrawTrip c s).InRange := by
  unfold withdrawTrip
  split
  · exact (removeEntry_inRange h).updTrip fun _ => by rfl
  · exact h

theorem enterRecovery_inRange (h : s.InRange) : (enterRecovery s).InRange := h.parts (by rfl)

theorem openGate_inRange (h : s.InRange) : (openGate s).InRange := h.parts (by rfl)

theorem closeGate_inRange (h : s.InRange) : (closeGate s).InRange := h.parts (by rfl)

theorem leaveStack_inRange (h : s.InRange) : (leaveStack c s).InRange := h.parts (by rfl)

theorem endWindowOf_inRange (h : s.InRange) : (endWindowOf c s).InRange := by
  unfold endWindowOf
  split
  · exact enterRecovery_inRange h
  · exact h

theorem endPanelHold_inRange (h : s.InRange) : (endPanelHold s).InRange := by
  unfold endPanelHold
  dsimp only
  split
  · exact h.parts (by rfl)
  · exact h.parts (by rfl)

theorem takeClaim_inRange {u : Byte} (h : s.InRange) : (takeClaim u s).1.InRange := by
  unfold takeClaim
  split
  · exact h
  · exact h
  · exact h
  all_goals
    split
    · exact h
    · split
      · exact h
      · split
        · exact h
        · exact h.parts (by rfl)

theorem releaseClaim_inRange (h : s.InRange) : (releaseClaim s).1.InRange := by
  unfold releaseClaim
  split
  · exact endPanelHold_inRange h
  · split
    · exact h.parts (by rfl)
    · exact h

theorem atSpeed_inRange (h : s.InRange) : (atSpeed c s).InRange := by
  unfold atSpeed
  split
  · exact endWindowOf_inRange (h.updTrip fun _ => by rfl)
  · exact h

theorem endTrip_inRange (h : s.InRange) : (endTrip c s).InRange :=
  leaveStack_inRange (endWindowOf_inRange (h.updTrip fun _ => by rfl))

theorem startWindowExpires_inRange (h : s.InRange) : (startWindowExpires s).InRange := by
  unfold startWindowExpires
  split
  · exact (enterRecovery_inRange (h.updTrip fun _ => by rfl)).noticePanel
  · exact h

/-! ## The sequencer's plan -/

theorem enterPhase_inRange {p : Phase} (h : s.InRange) : (enterPhase p s).InRange :=
  h.only (enterPhase_only (.refl s) p)

theorem joinPlan_inRange (h : s.InRange) : (joinPlan c s).InRange := by
  unfold joinPlan
  split
  · exact park_inRange h
  · exact h.parts (by rfl)

theorem runCalls_inRange (h : s.InRange) : (runCalls s).InRange := h.only (runCalls_moves s).only

theorem handBack_inRange (h : s.InRange) : (handBack c s).InRange := by
  unfold handBack
  split
  · exact runCalls_inRange (joinPlan_inRange h)
  · exact h

theorem parkingCheck_inRange (h : s.InRange) : (parkingCheck c s).InRange := by
  unfold parkingCheck
  split
  · split
    · split
      · exact park_inRange h
      · exact h
    · split
      · exact park_inRange h
      · exact h
    · split
      · exact park_inRange h
      · exact leavePlan_inRange (h.updCar fun _ => by rfl)
    · exact h
  · exact h

theorem deselect_inRange (h : s.InRange) : (deselect c s).InRange :=
  h.only (deselect_only (.refl s) c)

theorem deselectionCheck_inRange (h : s.InRange) : (deselectionCheck c s).InRange := by
  unfold deselectionCheck
  split
  · exact deselect_inRange h
  · exact h

theorem clearanceCheck_inRange (h : s.InRange) : (clearanceCheck s).InRange := by
  unfold clearanceCheck
  split
  · exact h.parts (by rfl)
  · exact h

theorem leaveOut_inRange (h : s.InRange) : (leaveOut s c).InRange := by
  unfold leaveOut
  split
  · exact h
  · split
    · split
      · exact deselect_inRange h
      · exact h.updCar fun _ => by rfl
    · split
      · exact h.updCar fun _ => by rfl
      · exact h

theorem takeSelect_inRange {args : List Byte} (h : s.InRange) : (takeSelect args s).InRange := by
  unfold takeSelect
  split
  · have cleared : (s.updAllCars (fun _ r => { r with pendDesel := false })).InRange :=
      h.updAllCars (fun _ _ hr => hr.of_magnitudes rfl)
    exact cleared.parts (by rfl)
  · have marked : (s.updAllCars (fun d r =>
        if (manualListOf s (args.drop 1)).contains d then { r with pendDesel := false }
        else r)).InRange := by
      refine h.updAllCars (fun d r hr => ?_)
      split
      · exact hr.of_magnitudes rfl
      · exact hr
    dsimp only
    split
    · exact State.InRange.foldl (marked.parts (by rfl)) (fun _ _ ht => leaveOut_inRange ht) _
    · exact marked.parts (by rfl)

theorem recallExpires_inRange (h : s.InRange) : (recallExpires c s).InRange := by
  have failed : ((s.updCar c (fun r => { r with recallTimer := none })).noticePanel
      .recallFailed).InRange := (h.updCar fun _ => by rfl).noticePanel
  unfold recallExpires
  dsimp only
  split
  · exact failed.updTrip fun _ => by rfl
  · split
    · exact leavePlan_inRange (failed.updCar fun _ => by rfl)
    · exact leavePlan_inRange ((dropEntry_inRange failed).updCar fun _ => by rfl)

theorem shedExpires_inRange (h : s.InRange) : (shedExpires c s).InRange := h.parts (by rfl)

/-! ## The phases -/

theorem giveRole_magnitudes (r : CarRecord) : (giveRole r).magnitudes = r.magnitudes := by
  unfold giveRole
  split <;> rfl

theorem giveRoles_inRange (h : s.InRange) : (giveRoles s).InRange :=
  h.updAllCars (fun d r hr => by
    split
    · exact hr.of_magnitudes (giveRole_magnitudes r)
    · exact hr)

theorem clearRecallFailed_inRange (h : s.InRange) : (clearRecallFailed s).InRange :=
  State.InRange.updAllCars h (fun _ _ hr => hr.of_magnitudes rfl)

theorem enterOutage_inRange (h : s.InRange) : (enterOutage s).InRange :=
  clearRecallFailed_inRange (giveRoles_inRange (closeGate_inRange (enterPhase_inRange h)))

theorem startSettle_inRange (h : s.InRange) : (startSettle s).InRange := by
  unfold startSettle
  split
  · exact h
  · exact h.parts (by rfl)

theorem stopSettle_inRange (h : s.InRange) : (stopSettle s).InRange := h.parts (by rfl)

theorem enterReturnFromStart_inRange (h : s.InRange) : (enterReturnFromStart s).InRange := by
  have cleared : ∀ t : State, t.InRange →
      State.InRange { t with plan := { t.plan with clearance := .clear } } := fun _ ht => ht.parts (by rfl)
  unfold enterReturnFromStart
  exact (cleared _ (openGate_inRange (giveRoles_inRange (enterPhase_inRange h)))).noticeSupply

theorem buildList_inRange (h : s.InRange) : (buildList s).InRange := by
  refine State.InRange.foldl (h.parts (by rfl)) (fun t d ht => ?_) _
  split
  · exact joinPlan_inRange ht
  · exact ht

theorem settleExpires_inRange (h : s.InRange) : (settleExpires s).InRange :=
  buildList_inRange (openGate_inRange (enterPhase_inRange (stopSettle_inRange h)))

/-- The generator-loss path ends the trip and gives a role; profile and figures stay (R103). -/
theorem loseGenerator_magnitudes (r : CarRecord) : (loseGenerator r).magnitudes = r.magnitudes := by
  unfold loseGenerator
  dsimp only
  split
  · rfl
  · split <;> rfl
  · split <;> rfl

theorem generatorLoss_inRange (h : s.InRange) : (generatorLoss s).InRange := by
  have closed := closeGate_inRange (dropAllEntries_inRange (enterPhase_inRange (p := .outage) h))
  exact (closed.updAllCars (fun _ r hr => hr.of_magnitudes (loseGenerator_magnitudes r))).parts (by rfl)

theorem enterMains_inRange (h : s.InRange) : (enterMains s).InRange := by
  have reported : (if uncleared s then s.noticePanel .unclearedTransfer else s).InRange := by
    split
    · exact h.noticePanel
    · exact h
  have closed := closeGate_inRange (dropAllEntries_inRange (enterPhase_inRange (p := .mains) reported))
  exact (closed.updAllCars (f := fun _ r => returnToMains r)
    (fun _ _ hr => hr.of_magnitudes rfl)).parts (by rfl)

theorem settleForReturn_magnitudes (r : CarRecord) :
    (settleForReturn r).magnitudes = r.magnitudes := by
  unfold settleForReturn
  split
  · split
    · rfl
    · split <;> rfl
  · rfl

theorem enterReturn_inRange (h : s.InRange) : (enterReturn s).InRange := by
  have dropped := dropAllEntries_inRange (enterPhase_inRange (p := .returning) h)
  exact clearanceCheck_inRange
    ((dropped.updAllCars (fun _ r hr => hr.of_magnitudes (settleForReturn_magnitudes r))).parts (by rfl))

theorem withdrawReturn_inRange (h : s.InRange) : (withdrawReturn s).InRange := by
  refine State.InRange.foldl (enterPhase_inRange (h.parts (by rfl))) (fun t d ht => ?_) _
  split
  · exact joinPlan_inRange ht
  · exact ht

theorem forceClearance_inRange (h : s.InRange) : (forceClearance s).InRange := h.parts (by rfl)

theorem reportSupply_inRange {r : SupplyState} (h : s.InRange) : (reportSupply r s).InRange := by
  have outage := enterOutage_inRange h
  have mains := enterMains_inRange h
  have lost := generatorLoss_inRange h
  have back := enterReturn_inRange h
  unfold reportSupply
  cases s.plan.phase
  -- by phase, in the order of section 4.1: START, MAINS, OUTAGE, RECALL, SERVICE, RETURN
  · cases r with
    | mains => exact enterPhase_inRange h
    | genStarting => exact outage
    | genReady => exact startSettle_inRange outage
    | retransfer => exact enterReturnFromStart_inRange h
    | genLost => exact outage
  · cases r with
    | mains => exact h
    | genStarting => exact outage
    | genReady => exact startSettle_inRange outage
    | retransfer => exact h
    | genLost => exact outage
  · cases r with
    | mains => exact mains
    | genStarting => exact stopSettle_inRange h
    | genReady => exact startSettle_inRange h
    | retransfer => exact stopSettle_inRange h
    | genLost => exact stopSettle_inRange h
  · cases r with
    | mains => exact mains
    | genStarting => exact lost
    | genReady => exact h
    | retransfer => exact back
    | genLost => exact lost
  · cases r with
    | mains => exact mains
    | genStarting => exact lost
    | genReady => exact h
    | retransfer => exact back
    | genLost => exact lost
  · cases r with
    | mains => exact mains
    | genStarting => exact lost
    | genReady => exact withdrawReturn_inRange h
    | retransfer => exact h
    | genLost => exact lost

/-! ## The car table -/

theorem withdrawCar_inRange (h : s.InRange) : (withdrawCar c s).InRange :=
  makeUnavailable_inRange (dropEntry_inRange h)

theorem applyExclusion_inRange (h : s.InRange) : (applyExclusion c s).InRange := by
  have held : (s.updCar c (fun r => { r with pendExcl := true })).InRange := h.updCar fun _ => by rfl
  unfold applyExclusion
  split
  · exact withdrawCar_inRange h
  · exact withdrawCar_inRange h
  · split
    · exact withdrawCar_inRange h
    · exact held
  · split
    · exact withdrawCar_inRange h
    · exact held
  · split
    · exact held
    · exact h
  all_goals exact h

theorem endFrozen_inRange {role : Role} (h : s.InRange) : (endFrozen c role s).InRange :=
  clearanceCheck_inRange (clearPending_inRange (leavePlan_inRange
    ((dropVictim_inRange (endTrip_inRange h)).updCar fun _ => by rfl)))

theorem returnStill_inRange (h : s.InRange) : (returnStill c s).InRange := by
  unfold returnStill
  dsimp only
  split
  · exact handBack_inRange (endFrozen_inRange h)
  · exact endFrozen_inRange h

theorem heldExclusion_inRange (h : s.InRange) : (heldExclusion c s).InRange := by
  unfold heldExclusion
  split
  · exact applyExclusion_inRange (h.updCar fun _ => by rfl)
  · exact h

theorem returnMoving_inRange (h : s.InRange) : (returnMoving c s).InRange := by
  unfold returnMoving
  extract_lets role t u
  have restored : t.InRange := h.updCar fun _ => by rfl
  have handed : u.InRange := by
    unfold u
    split
    · exact handBack_inRange restored
    · exact restored
  exact deselectionCheck_inRange (heldExclusion_inRange handed)

theorem resolveReturn_inRange (h : s.InRange) : (resolveReturn c s).InRange := by
  unfold resolveReturn
  split
  · split
    · exact returnStill_inRange h
    · exact returnMoving_inRange h
  · exact h

theorem notAvailable_inRange (h : s.InRange) : (notAvailable c s).InRange := by
  have held : (s.updCar c (fun r => { r with pendUnavail := true })).InRange := h.updCar fun _ => by rfl
  unfold notAvailable
  split
  · exact withdrawCar_inRange h
  · exact withdrawCar_inRange h
  · split
    · exact withdrawCar_inRange h
    · exact held
  · split
    · exact withdrawCar_inRange h
    · exact held
  all_goals exact h

theorem nowAvailable_inRange (h : s.InRange) : (nowAvailable c s).InRange := by
  have cleared : (s.updCar c (fun r => { r with pendUnavail := false })).InRange := h.updCar fun _ => by rfl
  unfold nowAvailable
  dsimp only
  split
  · exact handBack_inRange (cleared.updCar fun _ => by rfl)
  · exact cleared

theorem availabilityRules_inRange (h : s.InRange) : (availabilityRules c s).InRange := by
  unfold availabilityRules
  split
  · exact nowAvailable_inRange h
  · exact notAvailable_inRange h

theorem motionCheck_inRange (h : s.InRange) : (motionCheck c s).InRange := by
  unfold motionCheck
  split
  · exact h.noticePanel.noticeSupply
  · exact h

theorem takeState_inRange {u : Byte} (h : s.InRange) : (takeState c u s).InRange :=
  parkingCheck_inRange (motionCheck_inRange (availabilityRules_inRange
    (resolveReturn_inRange (h.updCar fun _ => by rfl))))

theorem freezeCar_inRange (h : s.InRange) : (freezeCar c s).InRange := by
  have dropped := dropEntry_inRange (c := c) (r := .link) h
  unfold freezeCar
  refine State.InRange.noticePanel ?_
  dsimp only
  split
  · exact dropped.parts (by rfl)
  · exact State.InRange.updCar (dropped.parts (by rfl)) (fun _ => by rfl)

theorem loseCarLink_inRange (h : s.InRange) : (loseCarLink c s).InRange := by
  have silent : (s.updCar c (fun r => { r with link := .lost, linkTimer := none })).InRange :=
    h.updCar fun _ => by rfl
  unfold loseCarLink
  dsimp only
  split
  · exact freezeCar_inRange silent
  · exact silent

theorem excludeCar_inRange (h : s.InRange) : (excludeCar c s).InRange := by
  unfold excludeCar
  split
  · exact applyExclusion_inRange (h.updCar fun _ => by rfl).noticeCar
  · exact h

theorem admitCar_inRange (h : s.InRange) : (admitCar c s).InRange := by
  unfold admitCar
  extract_lets t
  have admitted : t.InRange := h.updCar fun _ => by rfl
  split
  · exact handBack_inRange (admitted.updCar fun _ => by rfl)
  · split
    · exact handBack_inRange admitted
    · exact admitted

theorem takeInclude_inRange {ix code : Byte} (h : s.InRange) : (takeInclude ix code s).1.InRange := by
  unfold takeInclude
  split
  · exact h
  · split
    · exact h
    · split
      · exact excludeCar_inRange h
      · exact admitCar_inRange h

theorem takeRelease_inRange {ix : Byte} (h : s.InRange) : (takeRelease ix s).1.InRange := by
  unfold takeRelease
  split
  · exact h
  · split
    · exact h
    · split
      · exact endFrozen_inRange h
      · dsimp only
        exact h.updCar fun _ => by rfl

/-! ## The end of a trip -/

theorem tripEndStages_inRange (h : s.InRange) : (tripEndStages c s).InRange := by
  refine dropVictim_inRange ?_
  unfold applyPending
  split
  · exact makeUnavailable_inRange (dropVictim_inRange (endTrip_inRange h))
  · exact endTrip_inRange h

theorem tripEndChecks_inRange (h : s.InRange) : (tripEndChecks c s).InRange :=
  clearanceCheck_inRange (deselectionCheck_inRange (parkingCheck_inRange h))

theorem earlyGrant_inRange {s0 : State} (h : s.InRange) : (earlyGrant s0 s).InRange := by
  have granted : (grantIfDue s0 (evaluate s)).InRange :=
    (h.only (evaluate_moves s).only).only (grantIfDue_moves s0 _).only
  unfold earlyGrant
  dsimp only
  split
  · exact h
  · split
    · exact h
    · exact granted

theorem tripEnded_inRange (h : s.InRange) : (tripEnded c s).InRange := by
  have ended := tripEndStages_inRange (c := c) h
  unfold tripEnded
  dsimp only
  split
  · exact eitherOrder_inRange (closeEvent_inRange (tripEndChecks_inRange ended))
      (closeEvent_inRange (clearanceCheck_inRange (parkingCheck_inRange
        (earlyGrant_inRange (deselectionCheck_inRange ended)))))
  · exact closeEvent_inRange (tripEndChecks_inRange ended)

theorem startFailed_inRange (h : s.InRange) : (startFailed c s).InRange := by
  unfold startFailed
  split
  · exact tripEnded_inRange h
  · exact h

theorem carStopped_inRange (h : s.InRange) : (carStopped c s).InRange := by
  unfold carStopped
  split
  · exact tripEnded_inRange h
  · exact h

/-! ## The Site Store -/

theorem takeSiteWrite_inRange {t : Image} (h : s.InRange) : (takeSiteWrite t s).1.InRange := by
  unfold takeSiteWrite
  split
  · exact h
  · split
    · exact h
    · split
      · exact h
      · exact h.parts (by rfl)

theorem recountCar_inRange {was is : Bool} {r : CarRecord} (h : r.InRange) :
    (recountCar was is r).InRange := by
  unfold recountCar
  split
  · exact h
  · exact CarRecord.atReset_inRange _

theorem activate_inRange {t : Image} (h : s.InRange) : (activate t s).InRange := by
  have stored : State.InRange { s with store := { s.store with active := t, site := .valid } } :=
    (h.parts (by rfl))
  have silenced : ∀ (u : State) d, u.InRange → (silencePort u d).InRange := fun _ _ hu => hu.parts (by rfl)
  have opened : ∀ (u : State) d, u.InRange → (openPort u d).InRange := fun _ _ hu => hu.parts (by rfl)
  unfold activate
  exact State.InRange.foldl (State.InRange.foldl
    (stored.updAllCars (fun _ _ hr => recountCar_inRange hr)) silenced _) opened _

theorem endStoreWrite_inRange (h : s.InRange) : (endStoreWrite s).InRange := by
  unfold endStoreWrite
  dsimp only
  split
  · exact State.InRange.noticePanel (h.parts (by rfl))
  · exact activate_inRange (State.InRange.noticePanel (h.parts (by rfl)))

theorem programmingEnds_inRange (h : s.InRange) : (programmingEnds s).InRange := by
  unfold programmingEnds
  split
  · dsimp only
    split
    · exact endStoreWrite_inRange (h.parts (by rfl))
    · exact h.parts (by rfl)
  · exact h

theorem activateOnMains_inRange (h : s.InRange) : (activateOnMains s).InRange := by
  unfold activateOnMains
  split
  · exact endStoreWrite_inRange h
  · exact h

theorem takeSupply_inRange {u : Byte} (h : s.InRange) : (takeSupply u s).1.InRange := by
  unfold takeSupply
  split
  · exact h
  · exact activateOnMains_inRange (reportSupply_inRange h)

end

/-! ## The ports -/

/-- An owner's act keeps the ranges. -/
def KeepsRanges (act : State → State × ReqOutcome) : Prop := ∀ s, s.InRange → (act s).1.InRange

theorem KeepsRanges.closing {k : Cause} {act : State → State × ReqOutcome} (h : KeepsRanges act) :
    KeepsRanges (closing k act) := fun s hs => closeEvent_inRange (h s hs)

theorem KeepsRanges.accepting {f : State → State} (h : ∀ s, s.InRange → (f s).InRange) :
    KeepsRanges (accepting f) := h

theorem takeRecovered_inRange {s : State} (h : s.InRange) : (takeRecovered s).InRange := by
  unfold takeRecovered
  split
  · exact openGate_inRange h
  · exact h

theorem requestAct_keepsRanges (p : Port) (r : Request) (args : List Byte) :
    KeepsRanges (requestAct p r args) := by
  unfold requestAct
  split
  · exact .closing fun _ h => takeTrip_inRange h
  · exact .closing (.accepting fun _ h => withdrawTrip_inRange h)
  · exact .closing (.accepting fun _ h => atSpeed_inRange h)
  · exact .accepting fun _ h => startFailed_inRange h
  · exact .accepting fun _ h => carStopped_inRange h
  · exact .closing (.accepting fun _ h => takeState_inRange h)
  · exact .closing fun _ h => takeSupply_inRange h
  · exact .closing (.accepting fun _ h => takeRecovered_inRange h)
  · exact .closing fun _ h => takeReserve_inRange h _ _
  · exact .closing fun _ h => takeClaim_inRange h
  · exact .closing fun _ h => releaseClaim_inRange h
  · exact .closing (.accepting fun _ h => takeSelect_inRange h)
  · exact .closing fun _ h => takeInclude_inRange h
  · exact .closing fun _ h => takeRelease_inRange h
  · exact fun _ h => takeSiteWrite_inRange h
  · exact .accepting fun _ h => h

section
variable {s : State} {p : Port}

theorem carLinkUp_inRange {c : CarIx} (h : s.InRange) : (carLinkUp c s).InRange :=
  h.updCar (fun r => by dsimp only; split <;> rfl)

theorem linkUp_inRange (h : s.InRange) : (linkUp p s).InRange := by
  cases p with
  | car c => exact carLinkUp_inRange h
  | panel => exact h.parts (by rfl)
  | supply =>
    have heard : s.supplyHeard.InRange := h.parts (by rfl)
    change (supplyLinkUp s).InRange
    unfold supplyLinkUp
    dsimp only
    split
    · exact heard
    · exact closeEvent_inRange heard

theorem complete_inRange {act : State → State × ReqOutcome} (keeps : KeepsRanges act)
    (h : s.InRange) : (complete p act s).InRange := by
  have asked : (setRequest p none s).InRange := h.updPort
  have acted := keeps _ (linkUp_inRange (p := p) asked)
  exact acted.parts (by rfl)

theorem startRead_inRange {r : Request} (h : s.InRange) : (startRead p r s).InRange := by
  have linked := linkUp_inRange (p := p) h
  exact linked.parts (by rfl)

theorem startRequest_inRange {r : Request} (h : s.InRange) : (startRequest p r s).InRange := by
  unfold startRequest
  split
  · exact startRead_inRange h
  · split
    · exact complete_inRange (fun _ ht => ht) h
    · split
      · exact complete_inRange (requestAct_keepsRanges p r []) h
      · exact h.updPort

theorem noticeProtocol_inRange (h : s.InRange) : (noticeProtocol p s).InRange := by
  cases p with
  | car c => exact h.noticeCar
  | supply => exact h.noticeSupply
  | panel => exact h.noticePanel

theorem opcodeUnit_inRange {code : Byte} (h : s.InRange) : (opcodeUnit p code s).InRange := by
  unfold opcodeUnit
  split
  · exact startRequest_inRange h.updPort
  · exact complete_inRange (fun _ ht => noticeProtocol_inRange ht) h.updPort

theorem profileUnit_inRange {c : CarIx} {q : InProgress} (h : s.InRange) :
    (profileUnit c q s).InRange := by
  unfold profileUnit
  extract_lets latch
  have latched : ∀ t : State, t.InRange → (latch t).InRange := fun t ht =>
    ht.updCar_of ⟨latchProfile_inRange (ht.profile c) q.args, ht.trip c⟩
  split
  · exact h.updPort
  · split
    · exact complete_inRange (fun _ ht => ht) h
    · split
      · exact (latched s h).updPort
      · exact complete_inRange latched h

theorem offerStep_inRange {args : List Byte} (h : s.InRange) : (offerStep args s).InRange :=
  closeEvent_inRange ⟨h.profile, h.trip, latchOffer_inRange h.account args⟩

theorem offerUnit_inRange {q : InProgress} (h : s.InRange) : (offerUnit q s).InRange := by
  unfold offerUnit
  split
  · exact (offerStep_inRange h).updPort
  · exact complete_inRange (fun _ ht => offerStep_inRange ht) h

theorem handUnit_inRange {q : InProgress} (h : s.InRange) : (handUnit p q s).InRange := by
  unfold handUnit
  split
  · exact profileUnit_inRange h
  · exact offerUnit_inRange h
  · split
    · exact h.updPort
    · exact complete_inRange (requestAct_keepsRanges _ _ _) h

theorem argUnit_inRange {data : Byte} (h : s.InRange) : (argUnit p data s).InRange := by
  unfold argUnit
  split
  · exact handUnit_inRange h
  · split
    · exact h.updPort
    · exact h

/-- A bit is shifted in, or it completes a unit, which its port takes (R135). -/
theorem clockBit_inRange {b : Bool} (h : s.InRange) : (clockBit p s b).InRange := by
  unfold clockBit
  split
  · exact h
  · extract_lets i t
    have shifted : t.InRange := h.updPort
    split
    · exact shifted
    · split
      · exact argUnit_inRange shifted
      · exact opcodeUnit_inRange shifted

theorem shiftUnit_inRange {kind : Bool} {data : Byte} (h : s.InRange) :
    (shiftUnit p kind data s).InRange :=
  State.InRange.foldl h.updPort (fun _ _ ht => clockBit_inRange ht) _

theorem shiftArgs_inRange {data : List Byte} (h : s.InRange) : (shiftArgs p data s).InRange :=
  State.InRange.foldl h (fun _ _ ht => shiftUnit_inRange ht) _

theorem arrive_inRange {r : Request} {u : Arrival} (h : s.InRange) : (arrive p r u s).InRange := by
  cases u with
  | opened args => exact shiftArgs_inRange (shiftUnit_inRange h)
  | resumed args => exact shiftArgs_inRange h

theorem cutUnit_inRange {bits : List Bool} (h : s.InRange) : (cutUnit p bits s).InRange := by
  have clocked : (bits.foldl (clockBit p) (beginUnit p s)).InRange :=
    State.InRange.foldl h.updPort (fun _ _ ht => clockBit_inRange ht) bits
  exact clocked.parts (by rfl)

end

/-! ## The step -/

/-- If a command answers a next state, that state is in range. -/
def Answer.InRange (a : Answer) : Prop := ∀ t, a = .next t → t.InRange

theorem Answer.inRange_next {t : State} (h : t.InRange) : Answer.InRange (.next t) := by
  rintro _ ⟨⟩
  exact h

/-- An expiry, or another act that its condition guards, changes the state or leaves it. -/
theorem Answer.inRange_guarded {P : Prop} {inst : Decidable P} {s t : State} (h : s.InRange)
    (acts : t.InRange) : Answer.InRange (.next (if P then t else s)) := by
  refine Answer.inRange_next ?_
  split
  · exact acts
  · exact h

theorem exec_inRange {s : State} (h : s.InRange) (i : Instr) : Answer.InRange (exec i s) := by
  cases i with
  | trip c u => exact Answer.inRange_next (arrive_inRange h)
  | withdraw c => exact Answer.inRange_next (shiftUnit_inRange h)
  | atSpeed c => exact Answer.inRange_next (shiftUnit_inRange h)
  | startFail c => exact Answer.inRange_next (shiftUnit_inRange h)
  | stopped c => exact Answer.inRange_next (shiftUnit_inRange h)
  | state c u => exact Answer.inRange_next (arrive_inRange h)
  | profile c => exact Answer.inRange_next (shiftUnit_inRange h)
  | profileFieldLatch c units => exact Answer.inRange_next (shiftArgs_inRange h)
  | readCar c => exact Answer.inRange_next (shiftUnit_inRange h)
  | supply u => exact Answer.inRange_next (arrive_inRange h)
  | offer => exact Answer.inRange_next (shiftUnit_inRange h)
  | offerFieldLatch units => exact Answer.inRange_next (shiftArgs_inRange h)
  | recovered => exact Answer.inRange_next (shiftUnit_inRange h)
  | readSupply => exact Answer.inRange_next (shiftUnit_inRange h)
  | reserve u => exact Answer.inRange_next (arrive_inRange h)
  | gateClaim u => exact Answer.inRange_next (arrive_inRange h)
  | gateRelease => exact Answer.inRange_next (shiftUnit_inRange h)
  | select u => exact Answer.inRange_next (arrive_inRange h)
  | includeCar u => exact Answer.inRange_next (arrive_inRange h)
  | releaseCar u => exact Answer.inRange_next (arrive_inRange h)
  | siteWrite u => exact Answer.inRange_next (arrive_inRange h)
  | siteRead => exact Answer.inRange_next (shiftUnit_inRange h)
  | readAccount => exact Answer.inRange_next (shiftUnit_inRange h)
  | readPlan => exact Answer.inRange_next (shiftUnit_inRange h)
  | readNotices p => exact Answer.inRange_next (shiftUnit_inRange h)
  | readIdent p => exact Answer.inRange_next (shiftUnit_inRange h)
  | unknownOpcode p code => exact Answer.inRange_next (shiftUnit_inRange h)
  | surplusUnit p data => exact Answer.inRange_next (shiftArgs_inRange h)
  | replyUnitServed p data => exact Answer.inRange_next (shiftArgs_inRange h)
  | unitCut p bits => exact Answer.inRange_next (cutUnit_inRange h)
  | carLinkTimeout c => exact Answer.inRange_guarded h (closeEvent_inRange (loseCarLink_inRange h))
  | supplyLinkTimeout => exact Answer.inRange_guarded h (h.parts (by rfl))
  | panelLinkTimeout => exact Answer.inRange_guarded h (h.parts (by rfl))
  | settleExpiry => exact Answer.inRange_guarded h (closeEvent_inRange (settleExpires_inRange h))
  | returnTimerExpiry => exact Answer.inRange_guarded h (forceClearance_inRange h)
  | recallSupervisionExpiry c =>
    exact Answer.inRange_guarded h (closeEvent_inRange (recallExpires_inRange h))
  | startWindowExpiry => exact Answer.inRange_guarded h (startWindowExpires_inRange h)
  | panelWindowExpiry => exact Answer.inRange_guarded h (endPanelHold_inRange h).noticePanel
  | recoveryExpiry => exact Answer.inRange_guarded h (closeEvent_inRange (openGate_inRange h))
  | fairnessExpiry => exact Answer.inRange_guarded h (closeEvent_inRange (h.parts (by rfl)))
  | headAgeExpiry => exact Answer.inRange_guarded h (closeEvent_inRange (h.parts (by rfl)))
  | shedSupervisionExpiry c =>
    exact Answer.inRange_guarded h (closeEvent_inRange (shedExpires_inRange h))
  | storeProgrammingEnd =>
    exact Answer.inRange_guarded h (closeEvent_inRange (programmingEnds_inRange h))
  | reset =>
    have released := State.released_inRange (nvAfterReset s) s.store.carsel s.store.single s.ports
      s.now (s.freeIx + 1) s.pending
    exact Answer.inRange_next (released.parts (by rfl))
  | resetRelease carsel single =>
    exact Answer.inRange_guarded h (State.released_inRange _ _ _ _ _ _ _)

theorem idle_inRange {s : State} (h : s.InRange) : Answer.InRange (idle s) := by
  unfold idle
  split
  · exact Answer.inRange_next (h.parts (by rfl))
  · exact exec_inRange h _
  · exact exec_inRange (h.parts (by rfl)) _

/-- A state in range alone, sound or not, steps to one in range. -/
theorem step_inRange {s : State} (h : s.InRange) : Answer.InRange (step s) := by
  unfold step
  split
  · exact exec_inRange (h.parts (by rfl)) _
  · exact idle_inRange h

/-- Settles O50: no write leaves its range, so no command does. -/
theorem rangesKept : Obligations.RangesKept :=
  fun _ t sound stepped => step_inRange sound.inRange t stepped

end Sys2Proof.Machine
end

section
/-!
PROOFS. The Capacity Account's arithmetic (R25 to R36): sums over the records, what a trip and a car are charged,
the fit tests and the conditions, and O5, O6 and O7.
-/

namespace Sys2Proof.Machine

/-! ## Sums over the twelve records -/

theorem allCars_eq : allCars = List.finRange 12 := by decide

theorem mem_allCars (c : CarIx) : c ∈ allCars := by
  rw [allCars_eq]; exact List.mem_finRange c

/-- The sum over the records as a finite sum, for which the library has its lemmas. -/
theorem sumCars_eq_sum (f : CarIx → Nat) : sumCars f = ∑ c, f c := by
  rw [sumCars, allCars_eq, ← List.ofFn_eq_map, List.sum_ofFn]

theorem sumCars_mono {f g : CarIx → Nat} (h : ∀ c, f c ≤ g c) : sumCars f ≤ sumCars g := by
  rw [sumCars_eq_sum, sumCars_eq_sum]
  exact Finset.sum_le_sum fun c _ => h c

theorem sumCars_le {f : CarIx → Nat} {k : Nat} (h : ∀ c, f c ≤ k) : sumCars f ≤ 12 * k := by
  rw [sumCars_eq_sum]
  simpa using Finset.sum_le_card_nsmul Finset.univ f k fun c _ => h c

/-- Where two sums differ in the term of one car, they differ by the difference of that term. -/
theorem sumCars_exchange {f g : CarIx → Nat} {c : CarIx} (others : ∀ d, d ≠ c → f d = g d) :
    sumCars f + g c = sumCars g + f c := by
  have rest : ∑ d ∈ Finset.univ.erase c, f d = ∑ d ∈ Finset.univ.erase c, g d :=
    Finset.sum_congr rfl fun d hd => others d (Finset.ne_of_mem_erase hd)
  have whole (k : CarIx → Nat) : ∑ d, k d = k c + ∑ d ∈ Finset.univ.erase c, k d :=
    (Finset.add_sum_erase _ k (Finset.mem_univ c)).symm
  rw [sumCars_eq_sum, sumCars_eq_sum, whole f, whole g, rest]
  omega

/-- A sum over the cars of a kind counts the others as nothing. -/
theorem sumCars_ite (p : CarIx → Prop) [DecidablePred p] (f : CarIx → Nat) :
    sumCars (fun c => if p c then f c else 0) = ((allCars.filter fun c => p c).map f).sum := by
  unfold sumCars
  generalize allCars = l
  induction l with
  | nil => rfl
  | cons c l ih => by_cases h : p c <;> simp [h, ih]

/-! ## What a trip and a car are charged (R25 to R28) -/

theorem Trip.charge_credit_of_idle {t : Trip} (h : t.state = .none ∨ t.state = .waiting) :
    t.charge = 0 ∧ t.credit = 0 := by
  rcases h with h | h <;> simp [Trip.charge, Trip.credit, h]

theorem Trip.charge_credit_starting {t : Trip} (h : t.state = .starting) :
    t.charge = t.s ∧ t.credit = 0 := by
  simp [Trip.charge, Trip.credit, h]

theorem Trip.charge_credit_motoring {t : Trip} (h : t.state = .running) (k : t.kind = .motoring) :
    t.charge = t.n ∧ t.credit = 0 := by
  simp [Trip.charge, Trip.credit, h, k]

theorem Trip.charge_credit_regen {t : Trip} (h : t.state = .running) (k : t.kind = .regen) :
    t.charge = 0 ∧ t.credit = t.ret := by
  simp [Trip.charge, Trip.credit, h, k]

theorem CarRecord.baseCharge_eq (r : CarRecord) :
    r.baseCharge = r.standing + (if r.trip.state = .starting ∨
      r.trip.state = .running ∧ r.trip.kind = .motoring then r.trip.n else 0) := by
  unfold CarRecord.baseCharge
  cases r.trip.state <;> cases r.trip.kind <;> rfl

theorem CarRecord.standing_le_charge (r : CarRecord) : r.standing ≤ r.charge := Nat.le_add_right _ _

theorem Trip.InRange.charge_le {t : Trip} (h : t.InRange) : t.charge ≤ 2800 := by
  have run := h.n
  have start := h.s
  unfold Trip.charge
  split
  · omega
  · omega
  · exact start
  · split <;> omega

theorem Trip.InRange.credit_le {t : Trip} (h : t.InRange) : t.credit ≤ 550 := by
  unfold Trip.credit
  split
  · exact h.ret
  · omega

theorem CarRecord.InRange.standing_le {r : CarRecord} (h : r.InRange) : r.standing ≤ 40 := by
  unfold CarRecord.standing
  split
  · exact h.profile.a
  · omega

theorem CarRecord.InRange.charge_le {r : CarRecord} (h : r.InRange) : r.charge ≤ 2840 :=
  Nat.add_le_add h.standing_le h.trip.charge_le |>.trans (by omega)

theorem CarRecord.InRange.baseCharge_le {r : CarRecord} (h : r.InRange) : r.baseCharge ≤ 740 := by
  have standing := h.standing_le
  have run := h.trip.n
  rw [CarRecord.baseCharge_eq]
  split <;> omega

/-! ## The six sums (R22, R29) -/

theorem State.rs_eq (s : State) : s.rs = (s.account.reserves.toList.map fun r => r.getD 0).sum := by
  have entries : ∀ v : Vector (Option Nat) 8, v.toList =
      [v[0], v[1], v[2], v[3], v[4], v[5], v[6], v[7]] := fun v => by
    apply List.ext_getElem
    · simp
    · intro i hi _
      have : i < 8 := by simpa using hi
      interval_cases i <;> rfl
  rw [entries]
  rfl

/-- An entry holds at most the amount that a RESERVE is clamped to (R21). -/
theorem State.InRange.reserveAmount_le {s : State} (h : s.InRange) (e : EntryIx) :
    s.reserveAmount e ≤ 4095 := by
  have entry := h.account.reserves e
  unfold State.reserveAmount
  cases amount : s.account.reserves[e.val] with
  | none => simp
  | some v =>
    rw [amount] at entry
    have : 1 ≤ v ∧ v ≤ 4095 := by simpa using entry
    simpa using this.2

theorem State.InRange.rs_le {s : State} (h : s.InRange) : s.rs ≤ 32760 := by
  have total := List.sum_le_card_nsmul (allEntries.map s.reserveAmount) 4095 (by
    simpa using fun e _ => h.reserveAmount_le e)
  simpa [State.rs, allEntries] using total

theorem State.feederLoad_single {s : State} (h : s.singleCar = true) (f : FeederIx) :
    s.feederLoad f = 0 := by
  simp [State.feederLoad, h]

theorem State.feederLoad_of_table {s : State} (h : s.singleCar = false) (f : FeederIx) :
    s.feederLoad f = sumCars (fun c => if s.feeder c = f then (s.car c).charge else 0) := by
  simp [State.feederLoad, h]

theorem State.feederLoad_le_lc (s : State) (f : FeederIx) : s.feederLoad f ≤ s.lc := by
  unfold State.feederLoad
  split
  · omega
  · exact sumCars_mono fun c => by split <;> omega

theorem State.standingAll_le_lc (s : State) : s.standingAll ≤ s.lc :=
  sumCars_mono fun c => (s.car c).standing_le_charge

theorem State.standingOn_le_feederLoad {s : State} (h : s.singleCar = false) (f : FeederIx) :
    s.standingOn f ≤ s.feederLoad f := by
  rw [State.feederLoad_of_table h]
  refine sumCars_mono fun c => ?_
  split
  · exact (s.car c).standing_le_charge
  · exact Nat.le_refl 0

section
variable {s : State} (h : s.InRange)
include h

theorem State.InRange.lc_le : s.lc ≤ 34080 := sumCars_le fun c => (h.car c).charge_le

theorem State.InRange.lr_le : s.lr ≤ 6600 := sumCars_le fun c => (h.trip c).credit_le

theorem State.InRange.lb_le : s.lb ≤ 8880 := sumCars_le fun c => (h.car c).baseCharge_le

end

/-- Settles O5: each charge by the state and kind of its trip, each sum from its terms, each bound from the
bounds of twelve records or eight entries. -/
theorem chargesAndSums : Obligations.ChargesAndSums := by
  refine ⟨fun t => ⟨Trip.charge_credit_of_idle, Trip.charge_credit_starting,
    Trip.charge_credit_motoring, Trip.charge_credit_regen⟩,
    fun r => ⟨rfl, r.baseCharge_eq⟩, fun s => ⟨rfl, rfl, rfl, s.rs_eq, rfl,
      State.feederLoad_single, fun table f => ?_⟩, fun s h => ?_⟩
  · rw [State.feederLoad_of_table table, sumCars_ite]
    rfl
  · have offer := h.account.offer
    have reserves := h.rs_le
    have load := h.lc_le
    refine ⟨load, h.lr_le, h.lb_le, reserves, ?_, ?_,
      fun f => (s.feederLoad_le_lc f).trans load,
      fun c => ⟨(h.trip c).charge_le, (h.trip c).credit_le, (h.car c).baseCharge_le⟩⟩
    all_goals unfold State.headroom; omega

/-! ## The fit tests (R31 to R33) -/

theorem State.stepOk_iff (s : State) (c : CarIx) : s.stepOk c = true ↔
    s.account.stepLimit = 0 ∨ (s.trip c).s ≤ s.account.stepLimit := decide_eq_true_iff

theorem State.fitsNow_iff (s : State) (c : CarIx) : s.fitsNow c = true ↔
    (s.extra c : Int) ≤ s.headroom ∧
    (s.singleCar = true ∨ s.feederLoad (s.feeder c) + s.extra c ≤ s.rating (s.feeder c)) ∧
    s.stepOk c = true ∧
    ((s.trip c).kind = .regen → -(s.account.absorb : Int) ≤ (s.lb : Int) - s.lr - (s.trip c).ret) := by
  have reverse : (s.trip c).kind = .motoring ∨
      -(s.account.absorb : Int) ≤ (s.lb : Int) - s.lr - (s.trip c).ret ↔
      ((s.trip c).kind = .regen →
        -(s.account.absorb : Int) ≤ (s.lb : Int) - s.lr - (s.trip c).ret) := by
    cases (s.trip c).kind <;> simp
  simp only [State.fitsNow, State.fitReport, FitReport.passes, Bool.and_eq_true, Bool.or_eq_true,
    decide_eq_true_eq, beq_iff_eq, and_assoc]
  rw [reverse]

theorem State.fitsAtRest_iff (s : State) (c : CarIx) : s.fitsAtRest c = true ↔
    s.extra c + s.standingAll + s.rs ≤ s.account.offer ∧
    (s.singleCar = true ∨ s.extra c + s.standingOn (s.feeder c) ≤ s.rating (s.feeder c)) := by
  simp only [State.fitsAtRest, Bool.and_eq_true, Bool.or_eq_true, decide_eq_true_eq]

/-- Standing charges are part of the committed load and of a feeder's, so what fits now fits at rest (R33). -/
theorem State.fitsAtRest_of_fitsNow {s : State} {c : CarIx} (h : s.fitsNow c = true) :
    s.fitsAtRest c = true := by
  obtain ⟨room, feeder, -, -⟩ := (s.fitsNow_iff c).1 h
  refine (s.fitsAtRest_iff c).2 ⟨?_, ?_⟩
  · have standing := s.standingAll_le_lc
    unfold State.headroom at room
    omega
  · cases table : s.singleCar with
    | true => exact .inl rfl
    | false =>
      have standing := State.standingOn_le_feederLoad table (s.feeder c)
      have fits := feeder.resolve_left (by simp [table])
      exact .inr (by omega)

/-- Settles O6: each test part by part, and standing charges within the charges counted now. -/
theorem fitTests : Obligations.FitTests := by
  intro s c
  refine ⟨?_, s.fitsAtRest_iff c,
    fun now => ⟨State.fitsAtRest_of_fitsNow now, (s.stepOk_iff c).1 ((s.fitsNow_iff c).1 now).2.2.1⟩⟩
  rw [s.fitsNow_iff, s.stepOk_iff]
  rfl

/-! ## The overcommit conditions (R36) -/

theorem Phase.evaluates_iff (p : Phase) : p.evaluates = true ↔
    p = .recall ∨ p = .service ∨ p = .returning := by
  cases p <;> simp [Phase.evaluates]

theorem State.capacityCond_iff (s : State) : s.capacityCond = true ↔
    s.plan.phase.evaluates = true ∧ s.headroom < 0 := by
  simp [State.capacityCond]

theorem State.feederCond_iff (s : State) (f : FeederIx) : s.feederCond f = true ↔
    s.plan.phase.evaluates = true ∧ s.singleCar = false ∧ s.rating f < s.feederLoad f := by
  simp [State.feederCond, and_assoc]

theorem State.reverseCond_iff (s : State) : s.reverseCond = true ↔
    s.plan.phase.evaluates = true ∧ (s.lb : Int) - s.lr < -(s.account.absorb : Int) := by
  simp [State.reverseCond]

theorem State.anyCondition_iff (s : State) : s.anyCondition = true ↔
    s.capacityCond = true ∨ (∃ f, s.feederCond f = true) ∨ s.reverseCond = true := by
  have feeders : (∃ f, s.feederCond f = true) ↔ s.feederCond 0 = true ∨ s.feederCond 1 = true ∨
      s.feederCond 2 = true ∨ s.feederCond 3 = true := by
    simp [Fin.exists_fin_succ]
  rw [feeders]
  simp [State.anyCondition, State.conditions, or_assoc]

/-- Settles O7: the conditions one by one; none of them reads the step limit. -/
theorem overcommitConditions : Obligations.OvercommitConditions := by
  intro s
  refine ⟨?_, fun f => ?_, ?_, s.anyCondition_iff, fun u => rfl⟩
  · rw [s.capacityCond_iff, Phase.evaluates_iff]
  · rw [s.feederCond_iff, Phase.evaluates_iff]
  · rw [s.reverseCond_iff, Phase.evaluates_iff]

end Sys2Proof.Machine
end

section
/-!
PROOFS. What a port's command can reach. Every command of a port is a run of bits on its lines, and so keeps
whatever the port's units keep; the acts of a car's requests are decisions of the part, but for the writes of
the car's own record; and O59.
-/

namespace Sys2Proof.Machine

/-! ## A command of a port as its units -/

/-- A property that the lines of a port and its whole units keep. -/
structure KeptByUnits (p : Port) (P : State → Prop) : Prop where
  lines : ∀ (s : State) (f : PortIf → PortIf), (∀ i, (f i).request = i.request) → P s →
    P (s.updPort p f)
  argUnit : ∀ s data, P s → P (argUnit p data s)
  opcodeUnit : ∀ s code, P s → P (opcodeUnit p code s)

namespace KeptByUnits

variable {p : Port} {P : State → Prop}

theorem clockBit (k : KeptByUnits p P) {s : State} (b : Bool) (h : P s) : P (clockBit p s b) := by
  unfold Machine.clockBit
  split
  · exact h
  · extract_lets i t
    have shifted : P t := by
      have sampled := k.lines s (fun j => { j.sample b with
        shiftIn := if (j.sample b).bitCount < 9 then (j.sample b).shiftIn else [] }) (fun _ => by rfl) h
      exact sampled
    split
    · exact shifted
    · split
      · exact k.argUnit t _ shifted
      · exact k.opcodeUnit t _ shifted

theorem bits (k : KeptByUnits p P) {s : State} (l : List Bool) (h : P s) :
    P (l.foldl (Machine.clockBit p) s) :=
  List.foldlRecOn l _ h fun _ ht b _ => k.clockBit b ht

theorem beginUnit (k : KeptByUnits p P) {s : State} (h : P s) : P (beginUnit p s) :=
  k.lines s _ (fun _ => by rfl) h

theorem shiftUnit (k : KeptByUnits p P) {s : State} (kind : Bool) (data : Byte) (h : P s) :
    P (shiftUnit p kind data s) := k.bits _ (k.beginUnit h)

theorem shiftArgs (k : KeptByUnits p P) {s : State} (data : List Byte) (h : P s) :
    P (shiftArgs p data s) :=
  List.foldlRecOn data _ h fun _ ht u _ => k.shiftUnit true u ht

theorem arrive (k : KeptByUnits p P) {s : State} (r : Request) (u : Arrival) (h : P s) :
    P (arrive p r u s) := by
  cases u with
  | opened args => exact k.shiftArgs args (k.shiftUnit false r.code h)
  | resumed args => exact k.shiftArgs args h

theorem cutUnit (k : KeptByUnits p P) {s : State} (l : List Bool) (h : P s) : P (cutUnit p l s) :=
  k.lines _ (fun i => { i with selLow := false, awaitSelect := false, shiftIn := [] }) (fun _ => rfl)
    (k.bits l (k.beginUnit h))

/-- A command of a port keeps what the port's units keep. -/
theorem exec (k : KeptByUnits p P) {i : Instr} {s t : State} (sender : senderOf i = some p)
    (run : exec i s = .next t) (h : P s) : P t := by
  cases i with
  | trip c u => cases sender; cases run; exact k.arrive _ u h
  | withdraw c => cases sender; cases run; exact k.shiftUnit _ _ h
  | atSpeed c => cases sender; cases run; exact k.shiftUnit _ _ h
  | startFail c => cases sender; cases run; exact k.shiftUnit _ _ h
  | stopped c => cases sender; cases run; exact k.shiftUnit _ _ h
  | state c u => cases sender; cases run; exact k.arrive _ u h
  | profile c => cases sender; cases run; exact k.shiftUnit _ _ h
  | profileFieldLatch c units => cases sender; cases run; exact k.shiftArgs units h
  | readCar c => cases sender; cases run; exact k.shiftUnit _ _ h
  | supply u => cases sender; cases run; exact k.arrive _ u h
  | offer => cases sender; cases run; exact k.shiftUnit _ _ h
  | offerFieldLatch units => cases sender; cases run; exact k.shiftArgs units h
  | recovered => cases sender; cases run; exact k.shiftUnit _ _ h
  | readSupply => cases sender; cases run; exact k.shiftUnit _ _ h
  | reserve u => cases sender; cases run; exact k.arrive _ u h
  | gateClaim u => cases sender; cases run; exact k.arrive _ u h
  | gateRelease => cases sender; cases run; exact k.shiftUnit _ _ h
  | select u => cases sender; cases run; exact k.arrive _ u h
  | includeCar u => cases sender; cases run; exact k.arrive _ u h
  | releaseCar u => cases sender; cases run; exact k.arrive _ u h
  | siteWrite u => cases sender; cases run; exact k.arrive _ u h
  | siteRead => cases sender; cases run; exact k.shiftUnit _ _ h
  | readAccount => cases sender; cases run; exact k.shiftUnit _ _ h
  | readPlan => cases sender; cases run; exact k.shiftUnit _ _ h
  | readNotices q => cases sender; cases run; exact k.shiftUnit _ _ h
  | readIdent q => cases sender; cases run; exact k.shiftUnit _ _ h
  | unknownOpcode q code => cases sender; cases run; exact k.shiftUnit _ _ h
  | surplusUnit q data => cases sender; cases run; exact k.shiftArgs [data] h
  | replyUnitServed q data => cases sender; cases run; exact k.shiftArgs [data] h
  | unitCut q l => cases sender; cases run; exact k.cutUnit l h
  | _ => cases sender

end KeptByUnits

/-! ## Acts that are decisions of the part -/

section
variable {s t : State}

theorem clearPending_only (h : OnlyDecisions s t) (c : CarIx) : OnlyDecisions s (clearPending c t) :=
  h.thenUpdCar (fun _ => by rfl) (fun _ => by rfl)

theorem dropVictim_only (h : OnlyDecisions s t) (c : CarIx) : OnlyDecisions s (dropVictim c t) :=
  h.thenParts rfl rfl rfl rfl rfl rfl rfl rfl rfl rfl rfl

theorem makeUnavailable_only (h : OnlyDecisions s t) (c : CarIx) :
    OnlyDecisions s (makeUnavailable c t) := by
  refine clearPending_only (leavePlan_only (h.thenUpdCar ?_ ?_) c) c <;> exact fun _ => rfl

theorem refuseTrip_only (h : OnlyDecisions s t) (c : CarIx) (r : RefuseReason) :
    OnlyDecisions s (refuseTrip c r t).1 :=
  (h.thenUpdTrip fun _ => by rfl).thenCar

theorem withdrawTrip_only (h : OnlyDecisions s t) (c : CarIx) :
    OnlyDecisions s (withdrawTrip c t) := by
  unfold withdrawTrip
  split
  · exact (removeEntry_only h c).thenUpdTrip fun _ => by rfl
  · exact h

theorem enterRecovery_only (h : OnlyDecisions s t) : OnlyDecisions s (enterRecovery t) :=
  h.thenParts rfl rfl rfl rfl rfl rfl rfl rfl rfl rfl rfl

theorem leaveStack_only (h : OnlyDecisions s t) (c : CarIx) : OnlyDecisions s (leaveStack c t) :=
  h.thenParts rfl rfl rfl rfl rfl rfl rfl rfl rfl rfl rfl

theorem endWindowOf_only (h : OnlyDecisions s t) (c : CarIx) : OnlyDecisions s (endWindowOf c t) := by
  unfold endWindowOf
  split
  · exact enterRecovery_only h
  · exact h

theorem atSpeed_only (h : OnlyDecisions s t) (c : CarIx) : OnlyDecisions s (atSpeed c t) := by
  unfold atSpeed
  split
  · exact endWindowOf_only (h.thenUpdTrip fun _ => by rfl) c
  · exact h

theorem endTrip_only (h : OnlyDecisions s t) (c : CarIx) : OnlyDecisions s (endTrip c t) :=
  leaveStack_only (endWindowOf_only (h.thenUpdTrip fun _ => by rfl) c) c

theorem runCalls_only (h : OnlyDecisions s t) : OnlyDecisions s (runCalls t) :=
  h.trans (runCalls_moves t).only

theorem joinPlan_only (h : OnlyDecisions s t) (c : CarIx) : OnlyDecisions s (joinPlan c t) := by
  unfold joinPlan
  split
  · exact park_only h c
  · exact h.thenParts rfl rfl rfl rfl rfl rfl rfl rfl rfl rfl rfl

theorem handBack_only (h : OnlyDecisions s t) (c : CarIx) : OnlyDecisions s (handBack c t) := by
  unfold handBack
  split
  · exact runCalls_only (joinPlan_only h c)
  · exact h

theorem parkingCheck_only (h : OnlyDecisions s t) (c : CarIx) : OnlyDecisions s (parkingCheck c t) := by
  have leave : OnlyDecisions s
      (leavePlan c (t.updCar c fun r => { r with powered := false, role := .held })) := by
    refine leavePlan_only (h.thenUpdCar ?_ ?_) c <;> exact fun _ => rfl
  have parks : ∀ u, OnlyDecisions s u → OnlyDecisions s
      (if (t.car c).position = .atRecall then park c t else u) := fun u hu => by
    split
    · exact park_only h c
    · exact hu
  unfold parkingCheck
  split
  · split
    · exact parks t h
    · exact parks t h
    · exact parks _ leave
    · exact h
  · exact h

theorem deselectionCheck_only (h : OnlyDecisions s t) (c : CarIx) :
    OnlyDecisions s (deselectionCheck c t) := by
  unfold deselectionCheck
  split
  · exact deselect_only h c
  · exact h

theorem clearanceCheck_only (h : OnlyDecisions s t) : OnlyDecisions s (clearanceCheck t) := by
  unfold clearanceCheck
  split
  · refine OnlyDecisions.thenSupply ?_
    exact h.thenParts rfl rfl rfl rfl rfl rfl rfl rfl rfl rfl rfl
  · exact h

theorem withdrawCar_only (h : OnlyDecisions s t) (c : CarIx) : OnlyDecisions s (withdrawCar c t) :=
  makeUnavailable_only (dropEntry_only h c _) c

theorem applyExclusion_only (h : OnlyDecisions s t) (c : CarIx) :
    OnlyDecisions s (applyExclusion c t) := by
  have held : OnlyDecisions s (t.updCar c fun r => { r with pendExcl := true }) :=
    h.thenUpdCar (fun _ => by rfl) (fun _ => by rfl)
  unfold applyExclusion
  split
  · exact withdrawCar_only h c
  · exact withdrawCar_only h c
  · split
    · exact withdrawCar_only h c
    · exact held
  · split
    · exact withdrawCar_only h c
    · exact held
  · split
    · exact held
    · exact h
  all_goals exact h

theorem endFrozen_only (h : OnlyDecisions s t) (c : CarIx) (role : Role) :
    OnlyDecisions s (endFrozen c role t) := by
  have out : OnlyDecisions s ((dropVictim c (endTrip c t)).updCar c fun r =>
      { r with powered := false, role := role, preLoss := none }) :=
    (dropVictim_only (endTrip_only h c) c).thenUpdCar (fun _ => by rfl) (fun _ => by rfl)
  exact clearanceCheck_only (clearPending_only (leavePlan_only out c) c)

theorem resolveReturn_only (h : OnlyDecisions s t) (c : CarIx) :
    OnlyDecisions s (resolveReturn c t) := by
  have still : OnlyDecisions s (returnStill c t) := by
    unfold returnStill
    dsimp only
    split
    · exact handBack_only (endFrozen_only h c _) c
    · exact endFrozen_only h c _
  have restored (role : Role) : OnlyDecisions s
      (t.updCar c fun r => { r with role := role, preLoss := none }) :=
    h.thenUpdCar (fun _ => by rfl) (fun _ => by rfl)
  have excluded : ∀ u, OnlyDecisions s u → OnlyDecisions s (heldExclusion c u) := fun u hu => by
    unfold heldExclusion
    split
    · exact applyExclusion_only (hu.thenUpdCar (fun _ => by rfl) (fun _ => by rfl)) c
    · exact hu
  have moving : OnlyDecisions s (returnMoving c t) := by
    unfold returnMoving
    refine deselectionCheck_only (excluded _ ?_) c
    split
    · exact handBack_only (restored _) c
    · exact restored _
  unfold resolveReturn
  split
  · split
    · exact still
    · exact moving
  · exact h

theorem availabilityRules_only (h : OnlyDecisions s t) (c : CarIx) :
    OnlyDecisions s (availabilityRules c t) := by
  have held : OnlyDecisions s (t.updCar c fun r => { r with pendUnavail := true }) :=
    h.thenUpdCar (fun _ => by rfl) (fun _ => by rfl)
  have cleared : OnlyDecisions s (t.updCar c fun r => { r with pendUnavail := false }) :=
    h.thenUpdCar (fun _ => by rfl) (fun _ => by rfl)
  unfold availabilityRules
  split
  · unfold nowAvailable
    dsimp only
    split
    · exact handBack_only (cleared.thenUpdCar (fun _ => by rfl) (fun _ => by rfl)) c
    · exact cleared
  · unfold notAvailable
    split
    · exact withdrawCar_only h c
    · exact withdrawCar_only h c
    · split
      · exact withdrawCar_only h c
      · exact held
    · split
      · exact withdrawCar_only h c
      · exact held
    all_goals exact h

theorem motionCheck_only (h : OnlyDecisions s t) (c : CarIx) : OnlyDecisions s (motionCheck c t) := by
  unfold motionCheck
  split
  · exact h.thenPanel.thenSupply
  · exact h

theorem eitherOrder_only {u : State} (ht : OnlyDecisions s t) (hu : OnlyDecisions s u) :
    OnlyDecisions s (eitherOrder t u) := by
  obtain ⟨n, e | e⟩ := eitherOrder_cases t u
  · rw [e]; exact ht.thenParts rfl rfl rfl rfl rfl rfl rfl rfl rfl rfl rfl
  · rw [e]; exact hu.thenParts rfl rfl rfl rfl rfl rfl rfl rfl rfl rfl rfl

theorem tripEndStages_only (h : OnlyDecisions s t) (c : CarIx) :
    OnlyDecisions s (tripEndStages c t) := by
  refine dropVictim_only ?_ c
  unfold applyPending
  split
  · exact makeUnavailable_only (dropVictim_only (endTrip_only h c) c) c
  · exact endTrip_only h c

theorem earlyGrant_only (h : OnlyDecisions s t) (s0 : State) :
    OnlyDecisions s (earlyGrant s0 t) := by
  unfold earlyGrant
  dsimp only
  split
  · exact h
  · split
    · exact h
    · exact h.trans (Moves.only ((evaluate_moves t).trans (grantIfDue_moves s0 _)))

theorem tripEnded_only (h : OnlyDecisions s t) (c : CarIx) : OnlyDecisions s (tripEnded c t) := by
  have stages := tripEndStages_only h c
  have parkedFirst := (clearanceCheck_only (deselectionCheck_only (parkingCheck_only stages c) c)).trans
    (closeEvent_only {} t _)
  have grantFirst := (clearanceCheck_only (parkingCheck_only
    (earlyGrant_only (deselectionCheck_only stages c) t) c)).trans (closeEvent_only {} t _)
  unfold tripEnded
  dsimp only
  split
  · exact eitherOrder_only parkedFirst grantFirst
  · exact parkedFirst

end

/-! ## What a car port's command reaches -/

/-- From `s` to `t` nothing moved but the own record and port of car c and the part's own decisions, and a
request in progress on the port of c is one of that port's. -/
structure CarReach (c : CarIx) (s t : State) : Prop where
  store : t.store = s.store
  supplyLink : t.supplyLink = s.supplyLink
  panelLink : t.panelLink = s.panelLink
  limits : t.account.limits = s.account.limits
  mode : t.plan.mode = s.plan.mode
  manualList : t.plan.manualList = s.plan.manualList
  rstLow : t.rstLow = s.rstLow
  now : t.now = s.now
  pending : t.pending = s.pending
  included : (t.car c).included = (s.car c).included
  others : ∀ d, d ≠ c →
    (t.car d).inputs = (s.car d).inputs ∧ (t.trip d).figures = (s.trip d).figures
  ports : ∀ p, p ≠ .car c →
    (t.port p).framing = (s.port p).framing ∧ noticesKept (s.port p).notices (t.port p).notices
  own : ∀ q, (t.port (.car c)).request = some q → q.req ∈ requestsOf (.car c)

namespace CarReach

variable {c : CarIx} {s t u : State}

theorem refl (own : ∀ q, (s.port (.car c)).request = some q → q.req ∈ requestsOf (.car c)) :
    CarReach c s s :=
  ⟨rfl, rfl, rfl, rfl, rfl, rfl, rfl, rfl, rfl, rfl, fun _ _ => ⟨rfl, rfl⟩,
    fun _ _ => ⟨rfl, noticesKept_refl _⟩, own⟩

/-- The part's own decisions reach no further (Laws/Frames.lean). -/
theorem only (h : CarReach c s t) (k : OnlyDecisions t u) : CarReach c s u where
  store := k.store.trans h.store
  supplyLink := k.supplyLink.trans h.supplyLink
  panelLink := k.panelLink.trans h.panelLink
  limits := k.limits.trans h.limits
  mode := k.mode.1.trans h.mode
  manualList := k.mode.2.trans h.manualList
  rstLow := k.rstLow.trans h.rstLow
  now := k.now.trans h.now
  pending := k.pending.trans h.pending
  included := (congrArg CarInputs.included (k.cars c)).trans h.included
  others d ne := ⟨(k.cars d).trans (h.others d ne).1, (k.figures d).trans (h.others d ne).2⟩
  ports p ne := ⟨(k.framing p).trans (h.ports p ne).1, by
    have earlier := (h.ports p ne).2
    have later := k.notices p
    unfold noticesKept at *
    rw [← earlier, BitVec.and_assoc, later]⟩
  own q hq := h.own q ((congrArg PortIf.request (k.framing (.car c))).symm.trans hq)

/-- A car's own record is written, but for its inclusion. -/
theorem updCar (h : CarReach c s t) {f : CarRecord → CarRecord}
    (included : ∀ r, (f r).included = r.included) : CarReach c s (t.updCar c f) :=
  { h with
    included := by rw [State.updCar_car_same, included]; exact h.included
    others := fun d ne => by
      rw [State.trip, State.updCar_car_ne _ _ ne]
      exact h.others d ne }

/-- The own port's interface is written. -/
theorem updPort (h : CarReach c s t) {f : PortIf → PortIf}
    (own : ∀ q, (f (t.port (.car c))).request = some q → q.req ∈ requestsOf (.car c)) :
    CarReach c s (t.updPort (.car c) f) :=
  { h with
    ports := fun p ne => by
      rw [State.updPort_port_ne _ _ ne]
      exact h.ports p ne
    own := fun q hq => own q (by rwa [State.updPort_port_same] at hq) }

/-! ## The acts of a car's requests -/

theorem recordStatus (h : CarReach c s t) (unit : Byte) : CarReach c s (recordStatus c unit t) :=
  h.updCar fun _ => by rfl

theorem takeState (h : CarReach c s t) (unit : Byte) : CarReach c s (takeState c unit t) :=
  (h.recordStatus unit).only
    (parkingCheck_only (motionCheck_only (availabilityRules_only (resolveReturn_only (.refl _) c) c) c) c)

theorem admitEntry (h : CarReach c s t) : CarReach c s (admitEntry c t) := by
  unfold Machine.admitEntry
  extract_lets v w
  have waiting : CarReach c s v := h.updCar fun _ => by rfl
  have queued : CarReach c s w := waiting.only (setEntries_only (.refl _) _)
  exact queued.only (.parts rfl rfl rfl rfl rfl rfl rfl rfl rfl rfl rfl)

theorem takeTrip (h : CarReach c s t) (dir load : Byte) : CarReach c s (takeTrip c dir load t).1 := by
  have computed : CarReach c s (computeTrip c dir load t) := by
    unfold computeTrip State.updTrip
    exact h.updCar fun _ => by rfl
  have refused (r : RefuseReason) : CarReach c s (refuseTrip c r t).1 :=
    h.only (refuseTrip_only (.refl _) c r)
  have fresh : CarReach c s (freshTrip c dir load t).1 := by
    unfold freshTrip
    dsimp only
    split
    · exact computed.only (refuseTrip_only (.refl _) c _)
    · exact computed.admitEntry
  have updated : CarReach c s (updateTrip c dir load t).1 := by
    unfold updateTrip
    dsimp only
    split
    · exact computed.only (refuseTrip_only
        ((removeEntry_only (.refl _) c).thenUpdTrip fun _ => by rfl) c _)
    · exact computed
  unfold Machine.takeTrip
  split
  · exact h
  · exact h
  · exact refused _
  · exact refused _
  all_goals
    split
    · exact refused _
    · split
      · exact refused _
      · exact refused _
      · exact updated
      · exact fresh

theorem closeEvent (h : CarReach c s t) (k : Cause) (s0 : State) : CarReach c s (closeEvent k s0 t) :=
  h.only (closeEvent_only k s0 t)

theorem closing (k : Cause) {act : State → State × ReqOutcome} (h : CarReach c s (act t).1) :
    CarReach c s (closing k act t).1 := h.closeEvent k t

theorem accepting {f : State → State} (h : CarReach c s (f t)) : CarReach c s (accepting f t).1 := h

theorem requestAct (h : CarReach c s t) {r : Request} (own : r ∈ requestsOf (.car c))
    (args : List Byte) : CarReach c s (requestAct (.car c) r args t).1 := by
  have ended {f : State → State} (acts : f t = t ∨ f t = tripEnded c t) :
      CarReach c s (Machine.accepting f t).1 := by
    refine .accepting ?_
    rcases acts with e | e <;> rw [e]
    · exact h
    · exact h.only (tripEnded_only (.refl _) c)
  simp only [requestsOf, commonRequests, carRequests, List.cons_append, List.nil_append,
    List.mem_cons, List.not_mem_nil, or_false] at own
  -- in the order of R148's table: the two common reads, TRIP to STATE, PROFILE and READ-CAR
  rcases own with rfl | rfl | rfl | rfl | rfl | rfl | rfl | rfl | rfl | rfl <;>
    simp only [Machine.requestAct]
  · exact h
  · exact h
  · exact .closing {} (h.takeTrip _ _)
  · exact .closing {} (.accepting (h.only (withdrawTrip_only (.refl _) c)))
  · exact .closing {} (.accepting (h.only (atSpeed_only (.refl _) c)))
  · exact ended (by unfold startFailed; split <;> simp)
  · exact ended (by unfold carStopped; split <;> simp)
  · exact .closing {} (.accepting (h.takeState _))
  · exact h
  · exact h

/-! ## The units of the port -/

theorem setRequest (h : CarReach c s t) {q : Option InProgress}
    (own : ∀ x, q = some x → x.req ∈ requestsOf (.car c)) :
    CarReach c s (setRequest (.car c) q t) := h.updPort own

theorem linkUp (h : CarReach c s t) : CarReach c s (linkUp (.car c) t) :=
  by
  have heard : CarReach c s (carLinkUp c t) := h.updCar fun r => by dsimp only; split <;> rfl
  exact heard

theorem complete (h : CarReach c s t) {act : State → State × ReqOutcome}
    (acts : ∀ v, CarReach c s v → CarReach c s (act v).1) : CarReach c s (complete (.car c) act t) := by
  have asked : CarReach c s (Machine.setRequest (.car c) none t) := h.setRequest fun _ e => by cases e
  have acted := acts _ asked.linkUp
  exact acted.updPort (f := fun i => { i with outcome := _ }) acted.own

theorem opcodeUnit (h : CarReach c s t) (code : Byte) : CarReach c s (opcodeUnit (.car c) code t) := by
  have ended : CarReach c s (endPrevious (.car c) t) := h.updPort fun _ e => by cases e
  unfold Machine.opcodeUnit
  split
  · rename_i r named
    have own : r ∈ requestsOf (.car c) := List.mem_of_find?_eq_some named
    unfold startRequest
    split
    · exact ended.linkUp.updPort (f := fun i => { i with reply := _ }) ended.linkUp.own
    · split
      · exact ended.complete fun _ hv => hv
      · split
        · exact ended.complete fun _ hv => hv.requestAct own []
        · exact ended.setRequest fun x e => by cases e; exact own
  · exact ended.complete fun _ hv => hv.only (.noticeCar _ c _)

theorem profileUnit (h : CarReach c s t) {q : InProgress} (own : q.req ∈ requestsOf (.car c)) :
    CarReach c s (profileUnit c q t) := by
  unfold Machine.profileUnit
  extract_lets latch
  have latched : ∀ v, CarReach c s v → CarReach c s (latch v) := fun v hv => hv.updCar fun _ => by rfl
  have goesOn : ∀ v, CarReach c s v → CarReach c s (Machine.setRequest (.car c) (some q) v) :=
    fun v hv => hv.setRequest fun x e => by cases e; exact own
  split
  · exact goesOn _ h
  · split
    · exact h.complete fun _ hv => hv
    · split
      · exact goesOn _ (latched _ h)
      · exact h.complete latched

theorem handUnit (h : CarReach c s t) {q : InProgress} (own : q.req ∈ requestsOf (.car c)) :
    CarReach c s (handUnit (.car c) q t) := by
  unfold Machine.handUnit
  split
  · rename_i same; cases same; exact h.profileUnit own
  · rename_i offer; rw [offer] at own; exact absurd own (by simp [requestsOf, commonRequests, carRequests])
  · split
    · exact h.setRequest fun x e => by cases e; exact own
    · exact h.complete fun _ hv => hv.requestAct own _

theorem argUnit (h : CarReach c s t) (data : Byte) : CarReach c s (argUnit (.car c) data t) := by
  unfold Machine.argUnit
  split
  · rename_i q asked
    exact h.handUnit (h.own q asked)
  · split
    · exact h.updPort (by exact h.own)
    · exact h

theorem keptByUnits (c : CarIx) (s : State) : KeptByUnits (.car c) (CarReach c s) where
  lines _ _ same h := h.updPort fun q hq => h.own q ((same _).symm.trans hq)
  argUnit _ data h := h.argUnit data
  opcodeUnit _ code h := h.opcodeUnit code

end CarReach

/-- Settles O59: each unit of a car port reaches no further than `CarReach` says, so no command does. -/
theorem carPortsStayApart : Obligations.CarPortsStayApart := by
  intro s t i c own sender run
  have h := (CarReach.keptByUnits c s).exec sender run (.refl (own (.car c)))
  exact ⟨h.store, h.supplyLink, h.panelLink, h.limits, h.mode, h.manualList, h.rstLow, h.now,
    h.pending, h.included, h.others, h.ports⟩

end Sys2Proof.Machine
end

section
/-!
PROOFS. What the operations leave of the account and of the controller, in the order of the model's files. All
but a victim's leaving, the evaluation, the shed pass, the writes of a master and a phase's reset leave both as
they are.
-/

namespace Sys2Proof.Machine

/-- What the account and the controller hold. -/
def State.control (s : State) : Account × Shed := (s.account, s.shed)

theorem State.control_iff {s t : State} :
    t.control = s.control ↔ t.account = s.account ∧ t.shed = s.shed := Prod.mk_inj

/-- What every step of a walk over a list leaves, the walk leaves. -/
theorem foldl_control {α : Type} {f : State → α → State}
    (keeps : ∀ t a, (f t a).control = t.control) (l : List α) (s : State) :
    (l.foldl f s).control = s.control :=
  List.foldlRecOn (motive := fun t => t.control = s.control) l f rfl
    fun t h a _ => (keeps t a).trans h

section
variable (s : State) (c : CarIx)

/-! ## Named updates -/

@[simp] theorem State.updCar_control (f : CarRecord → CarRecord) :
    (s.updCar c f).control = s.control := rfl

@[simp] theorem State.updTrip_control (f : Trip → Trip) : (s.updTrip c f).control = s.control := rfl

@[simp] theorem State.updAllCars_control (f : CarIx → CarRecord → CarRecord) :
    (s.updAllCars f).control = s.control := rfl

@[simp] theorem State.updPort_control (p : Port) (f : PortIf → PortIf) :
    (s.updPort p f).control = s.control := rfl

@[simp] theorem State.noticeCar_control (k : CarNotice) : (s.noticeCar c k).control = s.control := by
  rcases s.noticeCar_eq c k with h | h <;> rw [h]; rfl

@[simp] theorem State.noticeSupply_control (k : SupplyNotice) :
    (s.noticeSupply k).control = s.control := rfl

@[simp] theorem State.noticePanel_control (k : PanelNotice) :
    (s.noticePanel k).control = s.control := rfl

@[simp] theorem State.noticeCars_control (k : CarNotice) : (s.noticeCars k).control = s.control :=
  foldl_control (fun t d => t.noticeCar_control d k) _ s

@[simp] theorem leavePlan_control : (leavePlan c s).control = s.control := rfl

@[simp] theorem clearPending_control : (clearPending c s).control = s.control := rfl

@[simp] theorem makeUnavailable_control : (makeUnavailable c s).control = s.control := rfl

@[simp] theorem park_control : (park c s).control = s.control := rfl

/-! ## The queue -/

@[simp] theorem setEntries_control (l : List CarIx) : (setEntries l s).control = s.control := by
  unfold setEntries
  dsimp only
  split
  · rfl
  · split <;> rfl

@[simp] theorem removeEntry_control : (removeEntry c s).control = s.control := setEntries_control s _

@[simp] theorem dropEntry_control (r : DropReason) : (dropEntry c r s).control = s.control := by
  unfold dropEntry
  split <;> simp

@[simp] theorem dropAllEntries_control : (dropAllEntries s).control = s.control := by
  unfold dropAllEntries
  rw [setEntries_control, foldl_control fun t d => dropEntry_control t d .phase]

@[simp] theorem recheck_control : (recheck s).control = s.control :=
  foldl_control (fun t d => by split <;> simp) _ s

@[simp] theorem refuseTrip_control (r : RefuseReason) :
    (refuseTrip c r s).1.control = s.control := by
  simp [refuseTrip]

@[simp] theorem computeTrip_control (dir load : Byte) :
    (computeTrip c dir load s).control = s.control := rfl

@[simp] theorem admitEntry_control : (admitEntry c s).control = s.control :=
  setEntries_control _ _

@[simp] theorem takeTrip_control (dir load : Byte) :
    (takeTrip c dir load s).1.control = s.control := by
  have fresh : (freshTrip c dir load s).1.control = s.control := by
    unfold freshTrip; dsimp only; split <;> simp
  have updated : (updateTrip c dir load s).1.control = s.control := by
    unfold updateTrip; dsimp only; split <;> simp
  unfold takeTrip
  split
  · rfl
  · rfl
  · simp
  · simp
  all_goals
    split
    · simp
    · split
      · simp
      · simp
      · exact updated
      · exact fresh

@[simp] theorem withdrawTrip_control : (withdrawTrip c s).control = s.control := by
  unfold withdrawTrip
  split <;> simp

/-! ## The gate -/

@[simp] theorem endWindowOf_control : (endWindowOf c s).control = s.control := by
  unfold endWindowOf
  split <;> rfl

@[simp] theorem carGrant_control : (carGrant c s).control = s.control := by
  unfold carGrant
  exact (State.noticeCar_control ..).trans (removeEntry_control _ c)

@[simp] theorem panelGrant_control (e : EntryIx) : (panelGrant e s).control = s.control := rfl

@[simp] theorem grantRule_control : (grantRule s).control = s.control := by
  have car : (carGrantRule s).control = s.control := by
    unfold carGrantRule
    split
    · split <;> simp
    · rfl
  unfold grantRule
  split
  · split
    · split
      · rfl
      · exact car
    · exact car
  · rfl

@[simp] theorem grantIfDue_control (s0 : State) : (grantIfDue s0 s).control = s.control := by
  unfold grantIfDue
  split <;> simp

@[simp] theorem endPanelHold_control : (endPanelHold s).control = s.control := by
  unfold endPanelHold
  dsimp only
  split <;> rfl

@[simp] theorem takeClaim_control (u : Byte) : (takeClaim u s).1.control = s.control := by
  unfold takeClaim
  repeat' split
  all_goals rfl

@[simp] theorem releaseClaim_control : (releaseClaim s).1.control = s.control := by
  unfold releaseClaim
  repeat' split
  · exact endPanelHold_control s
  all_goals rfl

@[simp] theorem atSpeed_control : (atSpeed c s).control = s.control := by
  unfold atSpeed
  split
  · simp
  · rfl

@[simp] theorem endTrip_control : (endTrip c s).control = s.control :=
  endWindowOf_control (s.updTrip c _) c

@[simp] theorem startWindowExpires_control : (startWindowExpires s).control = s.control := by
  unfold startWindowExpires
  split <;> rfl

/-! ## The plan -/

@[simp] theorem enterPhase_control (p : Phase) : (enterPhase p s).control = s.control := by
  unfold enterPhase
  simp
  rfl

@[simp] theorem endRecall_control : (endRecall s).control = s.control := by
  unfold endRecall
  rw [State.noticePanel_control, enterPhase_control]
  rfl

@[simp] theorem joinPlan_control : (joinPlan c s).control = s.control := by
  unfold joinPlan
  split <;> rfl

@[simp] theorem callCar_control : (callCar c s).control = s.control := by
  unfold callCar
  split
  · rfl
  · simp

theorem callHeads_control : ∀ (k : Nat) (s : State), (callHeads k s).control = s.control
  | 0, _ => rfl
  | k + 1, s => by
    unfold callHeads
    split
    · rfl
    · split
      · rw [callHeads_control k, callCar_control]; rfl
      · rfl

@[simp] theorem runCalls_control : (runCalls s).control = s.control := callHeads_control _ s

@[simp] theorem advancePlan_control (s0 : State) : (advancePlan s0 s).control = s.control := by
  unfold advancePlan
  dsimp only
  repeat' split
  all_goals simp

@[simp] theorem handBack_control : (handBack c s).control = s.control := by
  unfold handBack
  split <;> simp

@[simp] theorem parkingCheck_control : (parkingCheck c s).control = s.control := by
  unfold parkingCheck
  repeat' split
  all_goals rfl

@[simp] theorem deselect_control : (deselect c s).control = s.control := by simp [deselect]

@[simp] theorem deselectionCheck_control : (deselectionCheck c s).control = s.control := by
  unfold deselectionCheck
  split <;> simp

@[simp] theorem clearanceCheck_control : (clearanceCheck s).control = s.control := by
  unfold clearanceCheck
  split <;> rfl

@[simp] theorem selectCar_control : (selectCar c s).control = s.control := by
  unfold selectCar
  exact State.noticeCar_control ..

@[simp] theorem leaveOut_control : (leaveOut s c).control = s.control := by
  unfold leaveOut
  repeat' split
  all_goals simp

@[simp] theorem takeSelect_control (args : List Byte) : (takeSelect args s).control = s.control := by
  unfold takeSelect
  split
  · rfl
  · dsimp only
    split
    · exact foldl_control leaveOut_control _ _
    · rfl

@[simp] theorem recallExpires_control : (recallExpires c s).control = s.control := by
  unfold recallExpires
  dsimp only
  split
  · rfl
  · split
    · rfl
    · rw [leavePlan_control, State.updCar_control, dropEntry_control]; rfl

/-! ## The phases -/

@[simp] theorem enterOutage_control : (enterOutage s).control = s.control := by
  have closed (t : State) : (clearRecallFailed (giveRoles (closeGate t))).control = t.control := rfl
  unfold enterOutage
  rw [closed, enterPhase_control]

@[simp] theorem startSettle_control : (startSettle s).control = s.control := by
  unfold startSettle
  split <;> rfl

@[simp] theorem enterReturnFromStart_control : (enterReturnFromStart s).control = s.control := by
  have opened (t : State) : (openGate (giveRoles t)).control = t.control := rfl
  have cleared (t : State) :
      State.control { t with plan := { t.plan with clearance := .clear } } = t.control := rfl
  unfold enterReturnFromStart
  dsimp only
  rw [State.noticeSupply_control, cleared, opened, enterPhase_control]

@[simp] theorem settleExpires_control : (settleExpires s).control = s.control := by
  have joined (t : State) : (buildList t).control = t.control := by
    unfold buildList
    refine (foldl_control (fun u d => ?_) _ _).trans rfl
    split <;> simp
  have opened (t : State) : (openGate t).control = t.control := rfl
  unfold settleExpires
  rw [joined, opened, enterPhase_control]
  rfl

@[simp] theorem enterReturn_control : (enterReturn s).control = s.control := by
  unfold enterReturn
  refine (clearanceCheck_control _).trans ((dropAllEntries_control _).trans ?_)
  simp

@[simp] theorem withdrawReturn_control : (withdrawReturn s).control = s.control := by
  unfold withdrawReturn
  dsimp only
  rw [foldl_control fun t d => by split <;> simp, enterPhase_control]
  rfl

/-! ## The car table -/

@[simp] theorem withdrawCar_control : (withdrawCar c s).control = s.control := dropEntry_control s c _

@[simp] theorem applyExclusion_control : (applyExclusion c s).control = s.control := by
  unfold applyExclusion
  repeat' split
  all_goals simp

@[simp] theorem heldExclusion_control : (heldExclusion c s).control = s.control := by
  unfold heldExclusion
  split <;> simp

@[simp] theorem returnMoving_control : (returnMoving c s).control = s.control := by
  unfold returnMoving
  dsimp only
  rw [deselectionCheck_control, heldExclusion_control]
  split <;> simp

@[simp] theorem availabilityRules_control : (availabilityRules c s).control = s.control := by
  unfold availabilityRules
  split
  · unfold nowAvailable
    dsimp only
    split <;> simp
  · unfold notAvailable
    repeat' split
    all_goals simp

@[simp] theorem motionCheck_control : (motionCheck c s).control = s.control := by
  unfold motionCheck
  split <;> rfl

@[simp] theorem loseCarLink_control : (loseCarLink c s).control = s.control := by
  have freeze : ∀ t, (freezeCar c t).control = t.control := fun t => by
    unfold freezeCar
    dsimp only
    rw [State.noticePanel_control]
    split <;> exact dropEntry_control t c .link
  unfold loseCarLink
  dsimp only
  split
  · exact freeze _
  · rfl

@[simp] theorem takeInclude_control (ix code : Byte) : (takeInclude ix code s).1.control = s.control := by
  have excluded (d : CarIx) : (excludeCar d s).control = s.control := by
    unfold excludeCar
    split <;> simp
  have admitted (d : CarIx) : (admitCar d s).control = s.control := by
    unfold admitCar
    dsimp only
    repeat' split
    all_goals simp
  unfold takeInclude
  repeat' split
  · rfl
  · rfl
  · exact excluded _
  · exact admitted _

/-! ## The Site Store and the ports -/

@[simp] theorem takeSiteWrite_control (t : Image) : (takeSiteWrite t s).1.control = s.control := by
  unfold takeSiteWrite
  repeat' split
  all_goals rfl

@[simp] theorem endStoreWrite_control : (endStoreWrite s).control = s.control := by
  have activated (t : Image) (u : State) : (activate t u).control = u.control := by
    unfold activate
    exact (foldl_control (fun _ _ => by rfl) _ _).trans (foldl_control (fun _ _ => by rfl) _ _)
  unfold endStoreWrite
  dsimp only
  split
  · rfl
  · rw [activated]; rfl

@[simp] theorem programmingEnds_control : (programmingEnds s).control = s.control := by
  unfold programmingEnds
  split
  · dsimp only
    split
    · rw [endStoreWrite_control]; rfl
    · rfl
  · rfl

@[simp] theorem activateOnMains_control : (activateOnMains s).control = s.control := by
  unfold activateOnMains
  split <;> simp

@[simp] theorem takeRecovered_control : (takeRecovered s).control = s.control := by
  unfold takeRecovered
  split <;> rfl

end

end Sys2Proof.Machine
end

section
/-!
PROOFS. The account through an event: what the sums, the fits and the conditions read; that a grant and a
selection raise no condition; and that the closing of an event leaves the overcommit and the controller settled
(R37, R121), whatever its own effects left.
-/

namespace Sys2Proof.Machine

/-! ## What the account reads of the state -/

/-- What the account reads of a record (R25 to R27). -/
structure Bill where
  standing : Nat
  charge : Nat
  credit : Nat
  base : Nat

/-- The bill of a record. -/
def CarRecord.bill (r : CarRecord) : Bill := ⟨r.standing, r.charge, r.trip.credit, r.baseCharge⟩

/-- The account reads the same in `s` and in `t`. -/
structure SameAccount (s t : State) : Prop where
  active : t.store.active = s.store.active
  site : t.store.site = s.store.site
  evaluates : t.plan.phase.evaluates = s.plan.phase.evaluates
  limits : t.account.limits = s.account.limits
  bills : ∀ c, (t.car c).bill = (s.car c).bill

/-- The bill reads of a trip its state, and its figures once it moves. -/
theorem CarRecord.bill_congr {r q : CarRecord} (a : q.profile.a = r.profile.a)
    (powered : q.powered = r.powered) (figures : q.trip.figures = r.trip.figures)
    (state : q.trip.state = r.trip.state ∨
      q.trip.state.still = true ∧ r.trip.state.still = true) : q.bill = r.bill := by
  have standing : q.standing = r.standing := by simp only [CarRecord.standing, a, powered]
  simp only [Trip.figures, TripFigures.mk.injEq, Demand.mk.injEq] at figures
  obtain ⟨⟨-, -, kind, start, run, ret⟩, -, -⟩ := figures
  rcases state with state | ⟨now, before⟩
  · simp only [CarRecord.bill, CarRecord.charge, CarRecord.baseCharge, Trip.charge, Trip.credit,
      standing, state, kind, start, run, ret]
  · have idle (t : Trip) (h : t.state.still = true) : t.state = .none ∨ t.state = .waiting := by
      revert h; cases t.state <;> simp [TripState.still, TripState.moving]
    rcases idle _ now with e | e <;> rcases idle _ before with f | f <;>
      simp [CarRecord.bill, CarRecord.charge, CarRecord.baseCharge, Trip.charge, Trip.credit,
        standing, e, f]

namespace SameAccount

variable {s t u : State}

theorem refl (s : State) : SameAccount s s := ⟨rfl, rfl, rfl, rfl, fun _ => rfl⟩

theorem trans (h : SameAccount s t) (k : SameAccount t u) : SameAccount s u :=
  ⟨k.active.trans h.active, k.site.trans h.site, k.evaluates.trans h.evaluates,
    k.limits.trans h.limits, fun c => (k.bills c).trans (h.bills c)⟩

/-- Parts that the account does not read may change freely. -/
theorem parts (cars : t.cars = s.cars) (active : t.store.active = s.store.active)
    (site : t.store.site = s.store.site) (phase : t.plan.phase = s.plan.phase)
    (limits : t.account.limits = s.account.limits) : SameAccount s t :=
  ⟨active, site, by rw [phase], limits, fun c => by simp only [State.car, cars]⟩

theorem updCar {c : CarIx} {f : CarRecord → CarRecord} (bill : (f (s.car c)).bill = (s.car c).bill) :
    SameAccount s (s.updCar c f) :=
  ⟨rfl, rfl, rfl, rfl, fun d => by
    rw [State.updCar_car]
    split
    · rename_i same; rw [same, bill]
    · rfl⟩

/-- Decisions of the part leave the account, where they leave the phase's part in it, power, and the moving
trips. -/
theorem of_only (h : OnlyDecisions s t)
    (evaluates : t.plan.phase.evaluates = s.plan.phase.evaluates)
    (powered : ∀ c, (t.car c).powered = (s.car c).powered)
    (state : ∀ c, (t.trip c).state = (s.trip c).state ∨
      (t.trip c).state.still = true ∧ (s.trip c).state.still = true) : SameAccount s t where
  active := by rw [h.store]
  site := by rw [h.store]
  evaluates := evaluates
  limits := h.limits
  bills c := CarRecord.bill_congr (congrArg (fun i => i.profile.a) (h.cars c)) (powered c)
    (h.figures c) (state c)

theorem singleCar (h : SameAccount s t) : t.singleCar = s.singleCar := by
  simp only [State.singleCar, h.site]

theorem feeder (h : SameAccount s t) : t.feeder = s.feeder := by
  funext c; simp only [State.feeder, h.active]

theorem rating (h : SameAccount s t) : t.rating = s.rating := by
  funext f; simp only [State.rating, h.active]

theorem offer (h : SameAccount s t) : t.account.offer = s.account.offer :=
  congrArg (fun l => l.1) h.limits

theorem stepLimit (h : SameAccount s t) : t.account.stepLimit = s.account.stepLimit :=
  congrArg (fun l => l.2.1) h.limits

theorem absorb (h : SameAccount s t) : t.account.absorb = s.account.absorb :=
  congrArg (fun l => l.2.2.1) h.limits

theorem reserves (h : SameAccount s t) : t.account.reserves = s.account.reserves :=
  congrArg (fun l => l.2.2.2) h.limits

theorem rs (h : SameAccount s t) : t.rs = s.rs := by
  rw [State.rs_eq, State.rs_eq, h.reserves]

theorem charge (h : SameAccount s t) (c : CarIx) : (t.car c).charge = (s.car c).charge :=
  congrArg Bill.charge (h.bills c)

theorem standing (h : SameAccount s t) (c : CarIx) : (t.car c).standing = (s.car c).standing :=
  congrArg Bill.standing (h.bills c)

theorem lc (h : SameAccount s t) : t.lc = s.lc := by simp only [State.lc, h.charge]

theorem lr (h : SameAccount s t) : t.lr = s.lr := by
  have credit (c : CarIx) : (t.trip c).credit = (s.trip c).credit := congrArg Bill.credit (h.bills c)
  simp only [State.lr, credit]

theorem lb (h : SameAccount s t) : t.lb = s.lb := by
  have base (c : CarIx) : (t.car c).baseCharge = (s.car c).baseCharge :=
    congrArg Bill.base (h.bills c)
  simp only [State.lb, base]

theorem headroom (h : SameAccount s t) : t.headroom = s.headroom := by
  simp only [State.headroom, h.offer, h.rs, h.lc]

theorem feederLoad (h : SameAccount s t) (f : FeederIx) : t.feederLoad f = s.feederLoad f := by
  simp only [State.feederLoad, h.singleCar, h.feeder, h.charge]

theorem standingAll (h : SameAccount s t) : t.standingAll = s.standingAll := by
  simp only [State.standingAll, h.standing]

theorem standingOn (h : SameAccount s t) (f : FeederIx) : t.standingOn f = s.standingOn f := by
  simp only [State.standingOn, h.feeder, h.standing]

theorem conditions (h : SameAccount s t) : t.conditions = s.conditions := by
  simp only [State.conditions, State.capacityCond, State.feederCond, State.reverseCond, h.evaluates,
    h.headroom, h.singleCar, h.rating, h.feederLoad, h.lb, h.lr, h.absorb]

theorem anyCondition (h : SameAccount s t) : t.anyCondition = s.anyCondition := by
  rw [State.anyCondition, State.anyCondition, h.conditions]

theorem figures (h : SameAccount s t) : t.figures = s.figures := by
  have loads : t.feederLoad = s.feederLoad := funext h.feederLoad
  simp only [State.figures, h.offer, h.stepLimit, h.absorb, h.reserves, h.lc, h.lb, h.lr, loads,
    h.conditions]

end SameAccount

/-! ## No condition: the bounds that a grant and a selection keep -/

/-- No limit of the account is passed: what the conditions test in a phase that evaluates them (R36). -/
structure State.Within (s : State) : Prop where
  headroom : 0 ≤ s.headroom
  feeders : s.singleCar = true ∨ ∀ f, s.feederLoad f ≤ s.rating f
  reverse : -(s.account.absorb : Int) ≤ (s.lb : Int) - s.lr

theorem State.anyCondition_eq_false_iff (s : State) :
    s.anyCondition = false ↔ (s.plan.phase.evaluates = true → s.Within) := by
  rw [← Bool.not_eq_true, s.anyCondition_iff, s.capacityCond_iff, s.reverseCond_iff]
  simp only [s.feederCond_iff]
  constructor
  · intro none on
    refine ⟨by by_contra low; exact none (.inl ⟨on, by omega⟩), ?_,
      by by_contra low; exact none (.inr (.inr ⟨on, by omega⟩))⟩
    cases single : s.singleCar with
    | true => exact .inl rfl
    | false =>
      refine .inr fun f => ?_
      by_contra high
      exact none (.inr (.inl ⟨f, on, single, by omega⟩))
  · rintro within (⟨on, low⟩ | ⟨f, on, single, high⟩ | ⟨on, low⟩)
    · have := (within on).headroom; omega
    · have := (within on).feeders.resolve_left (by simp [single]) f; omega
    · have := (within on).reverse; omega

/-- One car is charged at most `x` more, and `x` fits: no limit is passed. -/
theorem State.Within.raise {s t : State} {c : CarIx} {x : Nat} (h : s.Within)
    (active : t.store.active = s.store.active) (site : t.store.site = s.store.site)
    (limits : t.account.limits = s.account.limits)
    (others : ∀ d, d ≠ c → (t.car d).bill = (s.car d).bill)
    (charge : (t.car c).charge ≤ (s.car c).charge + x)
    (base : (s.car c).baseCharge ≤ (t.car c).baseCharge)
    (credit : (t.trip c).credit ≤ (s.trip c).credit)
    (room : (x : Int) ≤ s.headroom)
    (feeder : s.singleCar = true ∨ s.feederLoad (s.feeder c) + x ≤ s.rating (s.feeder c)) :
    t.Within := by
  have offer : t.account.offer = s.account.offer := congrArg (fun l => l.1) limits
  have absorb : t.account.absorb = s.account.absorb := congrArg (fun l => l.2.2.1) limits
  have reserves : t.rs = s.rs := by
    rw [State.rs_eq, State.rs_eq, show t.account.reserves = s.account.reserves from
      congrArg (fun l => l.2.2.2) limits]
  have single : t.singleCar = s.singleCar := by simp only [State.singleCar, site]
  have feeders : t.feeder = s.feeder := by funext d; simp only [State.feeder, active]
  have ratings : t.rating = s.rating := by funext f; simp only [State.rating, active]
  have total : t.lc + (s.car c).charge = s.lc + (t.car c).charge :=
    sumCars_exchange fun d ne => congrArg Bill.charge (others d ne)
  have baseTotal : t.lb + (s.car c).baseCharge = s.lb + (t.car c).baseCharge :=
    sumCars_exchange fun d ne => congrArg Bill.base (others d ne)
  have creditTotal : t.lr + (s.trip c).credit = s.lr + (t.trip c).credit :=
    sumCars_exchange fun d ne => congrArg Bill.credit (others d ne)
  constructor
  · unfold State.headroom at room ⊢
    rw [offer, reserves]
    omega
  · rw [single, ratings]
    cases table : s.singleCar with
    | true => exact .inl rfl
    | false =>
      refine .inr fun f => ?_
      have before := h.feeders.resolve_left (by simp [table]) f
      have fits := feeder.resolve_left (by simp [table])
      rw [State.feederLoad_of_table table] at before fits
      rw [State.feederLoad_of_table (single.trans table), feeders]
      have load := sumCars_exchange (c := c)
        (f := fun d => if s.feeder d = f then (t.car d).charge else 0)
        (g := fun d => if s.feeder d = f then (s.car d).charge else 0)
        fun d ne => by
          rw [show (t.car d).charge = (s.car d).charge from congrArg Bill.charge (others d ne)]
      by_cases on : s.feeder c = f
      · rw [on] at fits
        simp only [on, if_true] at load
        omega
      · simp only [on, if_false] at load
        omega
  · have before := h.reverse
    rw [absorb]
    omega

/-- A car that is powered only now is charged its standing charge, and no trip's bill moves. -/
theorem CarRecord.charge_power (r : CarRecord) (role : Role) :
    CarRecord.charge { r with role := role, powered := true } ≤ r.charge + r.profile.a ∧
    r.baseCharge ≤ CarRecord.baseCharge { r with role := role, powered := true } := by
  cases h : r.powered <;>
    simp [CarRecord.charge, CarRecord.baseCharge, CarRecord.standing, h]
  omega

theorem selectCar_car (c d : CarIx) (s : State) : (selectCar c s).car d =
    if d = c then { s.car c with role := .service, powered := true } else s.car d := by
  have h : (selectCar c s).car d =
      (s.updCar c fun r => { r with role := .service, powered := true }).car d := by
    simp only [selectCar, State.noticeCar_car]; rfl
  rw [h, State.updCar_car]
  split
  · rename_i same; rw [same]
  · rfl

/-- A selection that passes the selection fit passes no limit (R34). -/
theorem selectCar_within {c : CarIx} {s : State} (h : s.Within) (fits : s.selectionFits c = true) :
    (selectCar c s).Within := by
  simp only [State.selectionFits, Bool.and_eq_true, Bool.or_eq_true, decide_eq_true_eq] at fits
  obtain ⟨room, feeder⟩ := fits
  have own : (selectCar c s).car c = { s.car c with role := .service, powered := true } := by
    simp [selectCar_car]
  have kept := (selectCar_only (.refl s) c)
  refine h.raise (c := c) (x := (s.car c).profile.a) (by rw [kept.store]) (by rw [kept.store])
    kept.limits (fun d ne => by rw [selectCar_car, if_neg ne]) ?_ ?_ ?_ ?_ feeder
  · rw [own]; exact (CarRecord.charge_power _ _).1
  · rw [own]; exact (CarRecord.charge_power _ _).2
  · rw [State.trip, own]; exact Nat.le_refl _
  · unfold State.headroom; omega

theorem setEntries_cars (l : List CarIx) (s : State) : (setEntries l s).cars = s.cars := by
  unfold setEntries
  dsimp only
  split
  · rfl
  · split <;> rfl

@[simp] theorem setEntries_car (l : List CarIx) (s : State) (c : CarIx) :
    (setEntries l s).car c = s.car c := by simp only [State.car, setEntries_cars]

@[simp] theorem removeEntry_car (c d : CarIx) (s : State) : (removeEntry c s).car d = s.car d :=
  setEntries_car ..

/-- The record of a car after its grant (R68). -/
def CarRecord.granted (r : CarRecord) : CarRecord :=
  { r with powered := true,
           trip := { r.trip with state := .starting, verdict := .granted, startOverdue := false,
                                 shedOrdered := false } }

theorem carGrant_car (c d : CarIx) (s : State) : (carGrant c s).car d =
    if d = c then (s.car c).granted else s.car d := by
  have h : (carGrant c s).car d =
      (removeEntry c (s.updCar c CarRecord.granted)).car d := by
    unfold carGrant; exact State.noticeCar_car ..
  rw [h, removeEntry_car, State.updCar_car]
  split
  · rename_i same; rw [same]
  · rfl

theorem CarRecord.baseCharge_le_granted (r : CarRecord) : r.baseCharge ≤ r.granted.baseCharge := by
  have standing : r.standing ≤ r.granted.standing := by
    unfold CarRecord.standing CarRecord.granted
    split <;> simp
  rw [CarRecord.baseCharge_eq, CarRecord.baseCharge_eq]
  refine Nat.add_le_add standing ?_
  split
  · exact Nat.le_refl _
  · exact Nat.zero_le _

/-- A trip that fits now passes no limit when it starts (R31, R67). -/
theorem carGrant_within {c : CarIx} {s : State} (h : s.Within) (fits : s.fitsNow c = true) :
    (carGrant c s).Within := by
  obtain ⟨room, feeder, -, -⟩ := (s.fitsNow_iff c).1 fits
  have own : (carGrant c s).car c = (s.car c).granted := by simp [carGrant_car]
  have kept := carGrant_only (.refl s) c
  refine h.raise (c := c) (x := s.extra c) (by rw [kept.store]) (by rw [kept.store])
    kept.limits (fun d ne => by rw [carGrant_car, if_neg ne]) ?_ ?_ ?_ room feeder
  · rw [own]
    cases power : (s.car c).powered with
    | false =>
      simp [CarRecord.charge, CarRecord.granted, CarRecord.standing, Trip.charge, State.extra,
        State.trip, power]
      omega
    | true =>
      simp [CarRecord.charge, CarRecord.granted, CarRecord.standing, Trip.charge, State.extra,
        State.trip, power]
  · rw [own]; exact (s.car c).baseCharge_le_granted
  · rw [State.trip, own]
    simp [CarRecord.granted, Trip.credit]

/-! ## Settled states -/

theorem Overcommit.eq_none_or (o : Overcommit) : o = .none ∨ o = .holding := by
  cases o
  · exact .inl rfl
  · exact .inr rfl

/-- The controller is IDLE with nothing held while no overcommit is, and ACTIVE else (R121). -/
structure State.Controlled (s : State) : Prop where
  idle : s.account.overcommit = .none → s.shed = .atReset
  active : s.account.overcommit = .holding → s.shed.state = .active

theorem State.settled_iff (s : State) : s.Settled ↔
    (s.account.overcommit = .holding ↔ s.anyCondition = true) ∧ s.Controlled := by
  constructor
  · intro h
    refine ⟨h.overcommit, fun none => ?_, fun holding => h.active.2 holding⟩
    have idle : s.shed.state = .idle := by
      cases e : s.shed.state
      · rfl
      · exact absurd ((h.active.1 e).symm.trans none) (by decide)
    have empty := h.idle idle
    cases d : s.shed with
    | mk state victims => rw [d] at idle empty; simp only at idle empty; rw [idle, empty]; rfl
  · rintro ⟨overcommit, control⟩
    refine ⟨overcommit, ⟨fun active => ?_, control.active⟩, fun idle => ?_⟩
    · rcases s.account.overcommit.eq_none_or with none | holding
      · rw [control.idle none] at active; exact absurd active (by decide)
      · exact holding
    · rcases s.account.overcommit.eq_none_or with none | holding
      · rw [control.idle none]; rfl
      · rw [control.active holding] at idle; exact absurd idle (by decide)

theorem State.Settled.controlled {s : State} (h : s.Settled) : s.Controlled := (s.settled_iff.1 h).2

theorem State.Controlled.of_control {s t : State} (h : s.Controlled) (same : t.control = s.control) :
    t.Controlled := by
  obtain ⟨account, shed⟩ := State.control_iff.1 same
  exact ⟨by rw [account, shed]; exact h.idle, by rw [account, shed]; exact h.active⟩

/-- Whether a state is settled is a matter of what the account reads and what it and the controller hold. -/
theorem State.Settled.of_same {s t : State} (h : s.Settled) (same : SameAccount s t)
    (control : t.control = s.control) : t.Settled := by
  refine t.settled_iff.2 ⟨?_, h.controlled.of_control control⟩
  rw [(State.control_iff.1 control).1, same.anyCondition]
  exact h.overcommit

/-- A state that an evaluation settles: controlled, or an overcommit is held where no condition is
evaluated. -/
structure State.Ready (s : State) : Prop where
  idle : s.account.overcommit = .none → s.shed = .atReset
  active : s.account.overcommit = .holding →
    s.shed.state = .active ∨ s.plan.phase.evaluates = false

theorem State.Controlled.ready {s : State} (h : s.Controlled) : s.Ready :=
  ⟨h.idle, fun holding => .inl (h.active holding)⟩

theorem State.anyCondition_quiet {s : State} (h : s.plan.phase.evaluates = false) :
    s.anyCondition = false := s.anyCondition_eq_false_iff.2 fun on => by simp [h] at on

theorem State.Ready.evaluate {s : State} (h : s.Ready) : (evaluate s).Settled := by
  refine (State.settled_iff _).2 ?_
  unfold Machine.evaluate
  split
  · rename_i none some
    exact ⟨⟨fun _ => some, fun _ => rfl⟩, ⟨fun e => (by cases e), fun _ => rfl⟩⟩
  · rename_i holding none
    exact ⟨⟨fun e => (by cases e), fun e => absurd (e.symm.trans none) (by decide)⟩,
      ⟨fun _ => rfl, fun e => (by cases e)⟩⟩
  · rename_i notBegins notEnds
    rcases s.account.overcommit.eq_none_or with none | holding
    · have no : s.anyCondition = false := Bool.eq_false_iff.2 fun e => notBegins none e
      exact ⟨by simp [none, no], h.idle, fun e => (by rw [none] at e; cases e)⟩
    · have some : s.anyCondition = true := by
        cases e : s.anyCondition
        · exact (notEnds holding e).elim
        · rfl
      refine ⟨by simp [holding, some], h.idle, fun _ => (h.active holding).resolve_right fun quiet => ?_⟩
      exact absurd (some.symm.trans (State.anyCondition_quiet quiet)) (by decide)

end Sys2Proof.Machine
end

section
/-!
PROOFS. The closing of an event settles the overcommit and the controller (R37, R121): calls and the re-check
leave the account, the shed pass is followed by an evaluation, and a selection or a grant is made only where no
condition holds and raises none.
-/

namespace Sys2Proof.Machine

/-! ## Calls, the end of the recall and the re-check -/

theorem State.noticeCars_plan (s : State) (k : CarNotice) : (s.noticeCars k).plan = s.plan :=
  List.foldlRecOn (motive := fun t : State => t.plan = s.plan) allCars
    (fun t c => t.noticeCar c k) rfl fun t h c _ => (t.noticeCar_plan c k).trans h

theorem enterPhase_plan (p : Phase) (s : State) :
    (enterPhase p s).plan = { s.plan with phase := p } := by
  unfold enterPhase
  rw [State.noticeCars_plan]
  rfl

theorem endRecall_plan (s : State) :
    (endRecall s).plan = { s.plan with phase := .service, recallDone := true } := by
  unfold endRecall
  rw [State.noticePanel_plan, enterPhase_plan]

theorem callCar_phase (c : CarIx) (s : State) : (callCar c s).plan.phase = s.plan.phase := by
  unfold callCar
  split
  · rfl
  · rw [State.noticeCar_plan]; rfl

theorem callHeads_phase : ∀ (k : Nat) (s : State), (callHeads k s).plan.phase = s.plan.phase
  | 0, _ => rfl
  | k + 1, s => by
    unfold callHeads
    split
    · rfl
    · split
      · rw [callHeads_phase k, callCar_phase]
      · rfl

theorem runCalls_phase (s : State) : (runCalls s).plan.phase = s.plan.phase := callHeads_phase _ s

theorem recallOver_phase {s : State} (h : recallOver s = true) : s.plan.phase = .recall := by
  simp only [recallOver, Bool.and_eq_true, beq_iff_eq] at h
  exact h.1.1

/-- The recall's end takes the phase from RECALL to SERVICE: both evaluate the conditions. -/
theorem advancePlan_evaluates (s0 s : State) :
    (advancePlan s0 s).plan.phase.evaluates = s.plan.phase.evaluates := by
  unfold advancePlan
  extract_lets a
  have called : a.plan.phase = s.plan.phase := by
    unfold a
    split
    · exact runCalls_phase s
    · rfl
  split
  · rename_i due
    have was := recallOver_phase (Bool.and_eq_true_iff.1 due).2
    rw [endRecall_plan, ← called, was]
    rfl
  · rw [called]

theorem State.Ready.advancePlan {s : State} (h : s.Ready) (s0 : State) : (advancePlan s0 s).Ready := by
  obtain ⟨account, shed⟩ := State.control_iff.1 (advancePlan_control s s0)
  refine ⟨by rw [account, shed]; exact h.idle, ?_⟩
  rw [account, shed, advancePlan_evaluates]
  exact h.active

theorem setEntries_plan (l : List CarIx) (s : State) : (setEntries l s).plan = s.plan := by
  unfold setEntries
  dsimp only
  split
  · rfl
  · split <;> rfl

@[simp] theorem dropEntry_plan (c : CarIx) (r : DropReason) (s : State) :
    (dropEntry c r s).plan = s.plan := by
  unfold dropEntry
  split
  · rw [State.noticeCar_plan, State.updTrip_plan, removeEntry, setEntries_plan]
  · rfl

/-- A drop writes the trip of the one car, if it waits, and nothing else of any record. -/
theorem dropEntry_car (c d : CarIx) (r : DropReason) (s : State) :
    (dropEntry c r s).car d = if d = c ∧ (s.trip c).state = .waiting then
      { s.car c with trip := { s.trip c with state := .none, verdict := .dropped r } }
      else s.car d := by
  unfold dropEntry
  by_cases waits : (s.trip c).state = .waiting
  · by_cases same : d = c
    · subst same
      simp only [waits, if_true, and_self, State.noticeCar_car, State.updTrip, State.updCar_car_same,
        removeEntry_car]
      rfl
    · simp [waits, same]
  · simp [waits]

/-- A drop leaves the account: a waiting trip is charged nothing. -/
theorem dropEntry_sameAccount (c : CarIx) (r : DropReason) (s : State) :
    SameAccount s (dropEntry c r s) := by
  refine .of_only (dropEntry_only (.refl s) c r) (by simp) (fun d => ?_) (fun d => ?_)
  · rw [dropEntry_car]
    split
    · rename_i same; rw [same.1]
    · rfl
  · rw [dropEntry_trip]
    split
    · rename_i same
      rw [same.1, same.2]
      exact .inr ⟨rfl, rfl⟩
    · exact .inl rfl

theorem recheck_sameAccount (s : State) : SameAccount s (recheck s) :=
  List.foldlRecOn (motive := SameAccount s) s.queue.entries _ (.refl s) fun t h c _ => by
    split
    · exact h.trans (dropEntry_sameAccount ..)
    · exact h

theorem State.Settled.recheckIfDue {s : State} (h : s.Settled) (s0 : State) :
    (recheckIfDue s0 s).Settled := by
  unfold Machine.recheckIfDue
  split
  · exact h.of_same (recheck_sameAccount s) (recheck_control s)
  · exact h

/-! ## The shed pass as choices -/

/-- One choice of the shed pass (R124, R128). -/
inductive Choice (s : State) : State → Prop where
  /-- Tier 1: an idle service car is deselected (R125). -/
  | park (c : CarIx) (f : Option FeederIx) (victim : idleVictim s f = some c) :
      Choice s (deselect c s)
  /-- Tiers 2 and 3: a motoring car is ordered to land, no victim of an earlier tier being left (R126). -/
  | land (c : CarIx) (role : Role) (f : Option FeederIx) (noIdle : idleVictim s f = none)
      (tier : role = .service ∨ role = .recall ∧ landVictim s .service f = none)
      (victim : landVictim s role f = some c) :
      Choice s (orderToLand c .capacity (s.trip c).n s)
  /-- A regenerating car is ordered to land (R128). -/
  | landReverse (c : CarIx) (victim : reverseVictim s = some c) :
      Choice s (orderToLand c .reverse (s.trip c).ret s)

/-- A run of choices. -/
abbrev Choices : State → State → Prop := Relation.ReflTransGen Choice

theorem shedOne_choice {f : Option FeederIx} {s t : State} (h : shedOne f s = some t) : Choice s t := by
  unfold shedOne at h
  split at h
  · rename_i c victim
    cases h
    exact .park c f victim
  · rename_i noIdle
    split at h
    · rename_i c victim
      cases h
      exact .land c .service f noIdle (.inl rfl) victim
    · rename_i noService
      split at h
      · rename_i c victim
        cases h
        exact .land c .recall f noIdle (.inr ⟨rfl, noService⟩) victim
      · cases h

theorem shedReverseOne_choice {s t : State} (h : shedReverseOne s = some t) : Choice s t := by
  unfold shedReverseOne at h
  split at h
  · rename_i c victim
    cases h
    exact .landReverse c victim
  · cases h

theorem shedStep_choices {short : State → Bool} {one : State → Option State}
    (choice : ∀ s t, one s = some t → Choice s t) :
    ∀ (k : Nat) (s : State), Choices s (shedStep short one k s)
  | 0, _ => .refl
  | k + 1, s => by
    unfold shedStep
    split
    · split
      · rename_i t h
        exact .head (choice s t h) (shedStep_choices choice k t)
      · exact .refl
    · exact .refl

/-- The feeder steps, in index order (R122). -/
def feederSteps (s : State) (l : List FeederIx) : State :=
  l.foldl (fun t f => shedStep (feederShort f) (shedOne (some f)) 24 t) s

theorem shedPass_eq (s : State) : shedPass s = shedStep reverseShort shedReverseOne 24
    (feederSteps (shedStep capacityShort (shedOne none) 24 s) allFeeders) := rfl

theorem feederSteps_choices (l : List FeederIx) (s : State) : Choices s (feederSteps s l) :=
  List.foldlRecOn (motive := Choices s) l _ .refl fun _ h _ _ =>
    h.trans (shedStep_choices (fun _ _ => shedOne_choice) 24 _)

/-- The shed pass is a run of choices. -/
theorem shedPass_choices (s : State) : Choices s (shedPass s) := by
  rw [shedPass_eq]
  exact ((shedStep_choices (fun _ _ => shedOne_choice) 24 s).trans (feederSteps_choices _ _)).trans
    (shedStep_choices (fun _ _ => shedReverseOne_choice) 24 _)

theorem Choice.shedState {s t : State} (h : Choice s t) : t.shed.state = s.shed.state := by
  cases h with
  | park c => rw [(State.control_iff.1 (deselect_control s c)).2]
  | land c => simp [orderToLand]
  | landReverse c => simp [orderToLand]

theorem shedPass_shedState (s : State) : (shedPass s).shed.state = s.shed.state := by
  have keeps : ∀ t, Choices s t → t.shed.state = s.shed.state := fun t h => by
    induction h with
    | refl => rfl
    | tail _ choice ih => exact choice.shedState.trans ih
  exact keeps _ (shedPass_choices s)

theorem State.Settled.shedIfDue {s : State} (h : s.Settled) (k : Cause) (s0 : State) :
    (shedIfDue k s0 s).Settled := by
  unfold Machine.shedIfDue
  split
  · rename_i due
    have account := (shedPass_moves s due.1).2
    have ready : (shedPass s).Ready := by
      refine ⟨fun none => ?_, fun _ => .inl ?_⟩
      · rw [account, due.1] at none; cases none
      · rw [shedPass_shedState]; exact h.controlled.active due.1
    exact (ready.advancePlan s0).evaluate
  · exact h

/-! ## Selection and grant -/

theorem State.Settled.noCondition {s : State} (h : s.Settled) (none : s.account.overcommit = .none) :
    s.anyCondition = false :=
  Bool.eq_false_iff.2 fun some => by rw [h.overcommit.2 some] at none; cases none

/-- An act made with no overcommit, which leaves the account, the controller and the phase and passes no limit,
leaves the state settled. -/
theorem State.Settled.of_within {s t : State} (h : s.Settled) (none : s.account.overcommit = .none)
    (control : t.control = s.control) (phase : t.plan.phase = s.plan.phase)
    (within : s.Within → t.Within) : t.Settled := by
  have no := s.anyCondition_eq_false_iff.1 (h.noCondition none)
  have still : t.anyCondition = false :=
    t.anyCondition_eq_false_iff.2 fun on => within (no (phase ▸ on))
  refine t.settled_iff.2 ⟨?_, h.controlled.of_control control⟩
  rw [(State.control_iff.1 control).1]
  simp [none, still]

theorem selectionAllowed_none {s : State} (h : selectionAllowed s = true) :
    s.account.overcommit = .none := by
  simp only [selectionAllowed, Bool.and_eq_true, beq_iff_eq] at h
  exact h.1.2

theorem selectCar_plan (c : CarIx) (s : State) : (selectCar c s).plan =
    { s.plan with serviceOrder := s.plan.serviceOrder ++ [c] } := by
  simp [selectCar]

theorem carGrant_plan (c : CarIx) (s : State) : (carGrant c s).plan = s.plan := by
  unfold carGrant
  rw [State.noticeCar_plan]
  exact setEntries_plan _ _

theorem carGrantAllowed_iff (s : State) : carGrantAllowed s = true ↔
    (s.plan.phase = .recall ∨ s.plan.phase = .service) ∧ s.account.overcommit = .none ∧
    s.supplyLink.link = .up := by
  simp [carGrantAllowed, and_assoc]

/-- The moves of the selection and of the grant rule. -/
inductive GrantMove (s : State) : State → Prop where
  | select (c : CarIx) (allowed : selectionAllowed s = true) (can : canSelect s c = true)
      (room : s.serviceCount < nsel s.store.active) (fits : s.selectionFits c = true) :
      GrantMove s (selectCar c s)
  | carGrant (c : CarIx) (opened : s.gate.state = .opened) (allowed : carGrantAllowed s = true)
      (candidate : c ∈ candidates s) (fits : s.fitsNow c = true) : GrantMove s (carGrant c s)
  | panelGrant (e : EntryIx) (opened : s.gate.state = .opened)
      (claim : s.gate.pendingClaim = some e) (window : s.gate.fairness = none) :
      GrantMove s (panelGrant e s)
  | draw (n : Nat) : GrantMove s { s with freeIx := n }

theorem GrantMove.settled {s t : State} (m : GrantMove s t) (h : s.Settled) : t.Settled := by
  cases m with
  | select c allowed can room fits =>
    exact h.of_within (selectionAllowed_none allowed) (selectCar_control s c)
      (by rw [selectCar_plan]) fun within => selectCar_within within fits
  | carGrant c opened allowed candidate fits =>
    exact h.of_within ((carGrantAllowed_iff s).1 allowed).2.1 (carGrant_control s c)
      (by rw [carGrant_plan]) fun within => carGrant_within within fits
  | panelGrant e => exact h.of_same (.parts rfl rfl rfl rfl rfl) rfl
  | draw n => exact h.of_same (.parts rfl rfl rfl rfl rfl) rfl

theorem GrantMove.move {s t : State} (m : GrantMove s t) : Move s t := by
  cases m with
  | select c allowed can room fits => exact .select c allowed can room fits
  | carGrant c opened allowed candidate fits => exact .carGrant c opened allowed candidate fits
  | panelGrant e opened claim window => exact .panelGrant e opened claim window
  | draw n => exact .draw n

/-- A chain of such moves. -/
abbrev GrantMoves : State → State → Prop := Relation.ReflTransGen GrantMove

theorem GrantMoves.settled {s t : State} (m : GrantMoves s t) (h : s.Settled) : t.Settled := by
  induction m with
  | refl => exact h
  | tail _ last ih => exact last.settled ih

theorem trySelect_grantMoves {c : CarIx} {s : State} (allowed : selectionAllowed s = true) :
    GrantMoves s (trySelect s c) := by
  unfold trySelect
  split
  · rename_i h
    exact .single (.select c allowed h.1 h.2.1 h.2.2)
  · exact .refl

theorem selectionRun_grantMoves (s : State) : GrantMoves s (selectionRun s) := by
  unfold selectionRun
  split
  · rename_i allowed
    exact (List.foldlRecOn (motive := fun t => GrantMoves s t ∧ selectionAllowed t = true)
      (selectionOrder s) trySelect ⟨.refl, allowed⟩ fun t h c _ =>
        ⟨h.1.trans (trySelect_grantMoves h.2), (trySelect_moves c t h.2).2⟩).1
  · exact .refl

theorem grantRule_grantMoves (s : State) : GrantMoves s (grantRule s) := by
  have car (opened : s.gate.state = .opened) : GrantMoves s (carGrantRule s) := by
    unfold carGrantRule
    split
    · rename_i allowed
      split
      · rename_i c found
        exact .single (.carGrant c opened allowed (List.mem_of_find?_eq_some found)
          (List.find?_some found))
      · exact .refl
    · exact .refl
  unfold grantRule
  split
  · rename_i opened
    split
    · rename_i e claim
      split
      · rename_i window
        exact .single (.panelGrant e opened claim (Option.isNone_iff_eq_none.mp window))
      · exact car opened
    · exact car opened
  · exact .refl

theorem grantIfDue_grantMoves (s0 s : State) : GrantMoves s (grantIfDue s0 s) := by
  unfold grantIfDue
  split
  · exact grantRule_grantMoves s
  · exact .refl

theorem selectAndGrant_grantMoves (k : Cause) (s0 s : State) :
    GrantMoves s (selectAndGrant k s0 s) := by
  have selectFirst := (selectionRun_grantMoves s).trans (grantIfDue_grantMoves s0 _)
  have grantFirst := ((grantIfDue_grantMoves s0 s).trans (selectionRun_grantMoves _)).trans
    (grantIfDue_grantMoves s0 _)
  unfold selectAndGrant
  split
  · obtain ⟨n, e | e⟩ := eitherOrder_cases (grantIfDue s0 (selectionRun s))
      (grantIfDue s0 (selectionRun (grantIfDue s0 s)))
    · rw [e]; exact selectFirst.tail (.draw n)
    · rw [e]; exact grantFirst.tail (.draw n)
  · exact grantIfDue_grantMoves s0 s

/-- Closing an event settles the overcommit and the controller, from any state an evaluation settles. -/
theorem State.Ready.closeEvent {s : State} (h : s.Ready) (k : Cause) (s0 : State) :
    (closeEvent k s0 s).Settled :=
  (selectAndGrant_grantMoves k s0 _).settled
    ((((h.advancePlan s0).evaluate).recheckIfDue s0).shedIfDue k s0)

end Sys2Proof.Machine
end

section
/-!
PROOFS. What each act leaves of the overcommit and the controller: an act that closes its event leaves a state
that the evaluation settles, and every other act leaves what the account reads.
-/

namespace Sys2Proof.Machine

section
variable {s : State} {c : CarIx}

/-! ## Acts on the victim set -/

theorem State.Controlled.dropVictim (h : s.Controlled) : (dropVictim c s).Controlled where
  idle free := by
    show ({ s.shed with victims := s.shed.victims.filter fun v => v.car != c } : Shed) = .atReset
    rw [h.idle free]
    rfl
  active := h.active

theorem State.Controlled.shedExpires (h : s.Controlled) : (shedExpires c s).Controlled where
  idle free := by
    show ({ s.shed with victims := s.shed.victims.map fun (v : Victim) =>
      if v.car = c then { v with standing := .lapsed, timer := none } else v } : Shed) = .atReset
    rw [h.idle free]
    rfl
  active := h.active

theorem State.Controlled.endFrozen {role : Role} (h : s.Controlled) :
    (endFrozen c role s).Controlled := by
  have out : (Machine.dropVictim c (endTrip c s)).Controlled :=
    (h.of_control (endTrip_control s c)).dropVictim
  refine out.of_control ?_
  unfold Machine.endFrozen
  simp

theorem State.Controlled.takeState {unit : Byte} (h : s.Controlled) :
    (takeState c unit s).Controlled := by
  have recorded : (recordStatus c unit s).Controlled := h.of_control rfl
  have returned : (resolveReturn c (recordStatus c unit s)).Controlled := by
    unfold resolveReturn
    split
    · split
      · unfold returnStill
        dsimp only
        split
        · exact recorded.endFrozen.of_control (handBack_control ..)
        · exact recorded.endFrozen
      · exact recorded.of_control (returnMoving_control ..)
    · exact recorded
  refine returned.of_control ?_
  unfold Machine.takeState
  simp

theorem State.Controlled.takeRelease {ix : Byte} (h : s.Controlled) :
    (takeRelease ix s).1.Controlled := by
  unfold Machine.takeRelease
  split
  · exact h
  · split
    · exact h
    · split
      · exact h.endFrozen
      · exact h.of_control rfl

theorem State.Controlled.tripEndStages (h : s.Controlled) : (tripEndStages c s).Controlled := by
  have ended : (endTrip c s).Controlled := h.of_control (endTrip_control s c)
  refine State.Controlled.dropVictim ?_
  unfold applyPending
  split
  · exact ended.dropVictim.of_control (makeUnavailable_control ..)
  · exact ended

theorem State.Controlled.earlyGrant (h : s.Controlled) (s0 : State) :
    (earlyGrant s0 s).Controlled := by
  unfold Machine.earlyGrant
  dsimp only
  split
  · exact h
  · split
    · exact h
    · exact h.ready.evaluate.controlled.of_control (grantIfDue_control ..)

theorem eitherOrder_settled {t : State} (hs : s.Settled) (ht : t.Settled) :
    (eitherOrder s t).Settled := by
  obtain ⟨n, e | e⟩ := eitherOrder_cases s t
  · rw [e]; exact hs.of_same (.parts rfl rfl rfl rfl rfl) rfl
  · rw [e]; exact ht.of_same (.parts rfl rfl rfl rfl rfl) rfl

theorem State.Controlled.tripEnded (h : s.Controlled) : (tripEnded c s).Settled := by
  have stages : (Machine.tripEndStages c s).Controlled := h.tripEndStages
  have parkedFirst : (closeEvent {} s (tripEndChecks c (Machine.tripEndStages c s))).Settled := by
    refine State.Ready.closeEvent (State.Controlled.ready (stages.of_control ?_)) _ _
    unfold tripEndChecks
    simp
  have early : (Machine.earlyGrant s (deselectionCheck c (Machine.tripEndStages c s))).Controlled :=
    (stages.of_control (deselectionCheck_control ..)).earlyGrant s
  unfold Machine.tripEnded
  dsimp only
  split
  · refine eitherOrder_settled parkedFirst (State.Ready.closeEvent ?_ _ _)
    exact (early.of_control (by simp)).ready
  · exact parkedFirst

/-! ## The phases -/

theorem dropAllEntries_plan (s : State) : (dropAllEntries s).plan = s.plan := by
  unfold dropAllEntries
  rw [setEntries_plan]
  exact List.foldlRecOn (motive := fun t : State => t.plan = s.plan) s.queue.entries
    (fun t c => dropEntry c .phase t) rfl fun t h d _ => (dropEntry_plan d .phase t).trans h

theorem generatorLoss_phase (s : State) : (generatorLoss s).plan.phase = .outage := by
  have phase : (dropAllEntries (enterPhase .outage s)).plan.phase = .outage := by
    rw [dropAllEntries_plan, enterPhase_plan]
  exact phase

theorem enterMains_phase (s : State) : (enterMains s).plan.phase = .mains := by
  have phase (a : State) : (dropAllEntries (enterPhase .mains a)).plan.phase = .mains := by
    rw [dropAllEntries_plan, enterPhase_plan]
  exact phase _

/-- Where no condition is evaluated, an overcommit is left for the evaluation to end (R38). -/
theorem State.Ready.of_quiet {s : State} (shed : s.shed = .atReset)
    (quiet : s.plan.phase.evaluates = false) : s.Ready := ⟨fun _ => shed, fun _ => .inr quiet⟩

theorem State.Controlled.reportSupply (h : s.Controlled) (r : SupplyState) :
    (reportSupply r s).Ready := by
  have same {t : State} (k : t.control = s.control) : t.Ready := (h.of_control k).ready
  have outage := same (enterOutage_control s)
  have settle := same ((startSettle_control (enterOutage s)).trans (enterOutage_control s))
  have mains : (enterMains s).Ready := .of_quiet rfl (by rw [enterMains_phase]; rfl)
  have lost : (generatorLoss s).Ready := .of_quiet rfl (by rw [generatorLoss_phase]; rfl)
  unfold Machine.reportSupply
  cases s.plan.phase with
  | start =>
    cases r with
    | mains => exact same (enterPhase_control s _)
    | genStarting => exact outage
    | genReady => exact settle
    | retransfer => exact same (enterReturnFromStart_control s)
    | genLost => exact outage
  | mains =>
    cases r with
    | mains => exact h.ready
    | genStarting => exact outage
    | genReady => exact settle
    | retransfer => exact h.ready
    | genLost => exact outage
  | outage =>
    cases r with
    | mains => exact mains
    | genStarting => exact same rfl
    | genReady => exact same (startSettle_control s)
    | retransfer => exact same rfl
    | genLost => exact same rfl
  | returning =>
    cases r with
    | mains => exact mains
    | genStarting => exact lost
    | genReady => exact same (withdrawReturn_control s)
    | retransfer => exact h.ready
    | genLost => exact lost
  | _ =>
    cases r with
    | mains => exact mains
    | genStarting => exact lost
    | genReady => exact h.ready
    | retransfer => exact same (enterReturn_control s)
    | genLost => exact lost

theorem activateOnMains_plan (s : State) : (activateOnMains s).plan = s.plan := by
  have ports (f : State → CarIx → State) (keeps : ∀ t d, (f t d).plan = t.plan) (l : List CarIx)
      (t : State) : (l.foldl f t).plan = t.plan :=
    List.foldlRecOn (motive := fun u : State => u.plan = t.plan) l f rfl
      fun u h d _ => (keeps u d).trans h
  unfold activateOnMains
  split
  · unfold endStoreWrite
    dsimp only
    split
    · rfl
    · unfold activate
      exact (ports openPort (fun _ _ => rfl) _ _).trans (ports silencePort (fun _ _ => rfl) _ _)
  · rfl

theorem State.Controlled.takeSupply {unit : Byte} (h : s.Controlled) :
    (takeSupply unit s).1.Ready := by
  unfold Machine.takeSupply
  split
  · exact h.ready
  · rename_i r _
    have reported := h.reportSupply r
    obtain ⟨account, shed⟩ := State.control_iff.1 (activateOnMains_control (Machine.reportSupply r s))
    constructor
    · rw [account, shed]; exact reported.idle
    · rw [account, shed, activateOnMains_plan]; exact reported.active

/-! ## The acts of complete requests -/

theorem State.Controlled.takeReserve {entry : Byte} {amount : Nat} (h : s.Controlled) :
    (takeReserve entry amount s).1.Controlled := by
  unfold Machine.takeReserve
  split
  · exact h
  · dsimp only
    split
    · exact ⟨h.idle, h.active⟩
    · exact ⟨h.idle, h.active⟩

theorem latchOffer_overcommit (args : List Byte) (a : Account) :
    (latchOffer args a).overcommit = a.overcommit := by
  unfold latchOffer
  split <;> rfl

theorem State.Settled.offerStep (h : s.Settled) (args : List Byte) : (offerStep args s).Settled := by
  refine State.Ready.closeEvent ⟨?_, ?_⟩ _ _
  · rw [latchOffer_overcommit]; exact h.controlled.ready.idle
  · rw [latchOffer_overcommit]; exact h.controlled.ready.active

theorem closing_settled {k : Cause} {act : State → State × ReqOutcome} (acted : (act s).1.Ready) :
    (closing k act s).1.Settled := acted.closeEvent k s

theorem State.Settled.takeSiteWrite {t : Image} (h : s.Settled) : (takeSiteWrite t s).1.Settled := by
  refine h.of_same ?_ (takeSiteWrite_control s t)
  unfold Machine.takeSiteWrite
  repeat' split
  all_goals exact .parts rfl rfl rfl rfl rfl

theorem accepting_ready {f : State → State} (acted : (f s).Ready) : (accepting f s).1.Ready := acted

/-- Every complete request leaves a settled state settled, on whatever port it comes. -/
theorem State.Settled.requestAct (h : s.Settled) (p : Port) (r : Request) (args : List Byte) :
    (requestAct p r args s).1.Settled := by
  have control := h.controlled
  have same {t : State} (k : t.control = s.control) : t.Ready := (control.of_control k).ready
  unfold Machine.requestAct
  split
  · exact closing_settled (same (takeTrip_control ..))
  · exact closing_settled (accepting_ready (same (withdrawTrip_control ..)))
  · exact closing_settled (accepting_ready (same (atSpeed_control ..)))
  · show (startFailed _ s).Settled
    unfold startFailed
    split
    · exact control.tripEnded
    · exact h
  · show (carStopped _ s).Settled
    unfold carStopped
    split
    · exact control.tripEnded
    · exact h
  · exact closing_settled (accepting_ready control.takeState.ready)
  · exact closing_settled control.takeSupply
  · exact closing_settled (accepting_ready (same (takeRecovered_control s)))
  · exact closing_settled control.takeReserve.ready
  · exact closing_settled (same (takeClaim_control ..))
  · exact closing_settled (same (releaseClaim_control s))
  · exact closing_settled (accepting_ready (same (takeSelect_control ..)))
  · exact closing_settled (same (takeInclude_control ..))
  · exact closing_settled control.takeRelease.ready
  · exact h.takeSiteWrite
  · exact h

end

/-! ## The units of a port -/

section
variable {s : State} {p : Port}

theorem State.Settled.updPort (h : s.Settled) {f : PortIf → PortIf} : (s.updPort p f).Settled :=
  h.of_same (.parts rfl rfl rfl rfl rfl) rfl

theorem carLinkUp_sameAccount (c : CarIx) (s : State) : SameAccount s (carLinkUp c s) := by
  refine .updCar ?_
  dsimp only
  split <;> rfl

theorem State.Settled.linkUp (h : s.Settled) : (linkUp p s).Settled := by
  cases p with
  | car c => exact h.of_same (carLinkUp_sameAccount c s) rfl
  | panel => exact h.of_same (.parts rfl rfl rfl rfl rfl) rfl
  | supply =>
    have heard : s.supplyHeard.Settled := h.of_same (.parts rfl rfl rfl rfl rfl) rfl
    show (supplyLinkUp s).Settled
    unfold supplyLinkUp
    dsimp only
    split
    · exact heard
    · exact heard.controlled.ready.closeEvent _ _

theorem State.Settled.complete {act : State → State × ReqOutcome} (h : s.Settled)
    (acts : (Machine.linkUp p (setRequest p none s)).Settled →
      (act (Machine.linkUp p (setRequest p none s))).1.Settled) : (complete p act s).Settled := by
  have asked : (setRequest p none s).Settled := h.updPort
  exact (acts asked.linkUp).updPort (f := fun i => { i with outcome := _ })

theorem State.Settled.setNotice (h : s.Settled) (n : Nat) : (s.setNotice p n).Settled := h.updPort

theorem State.Settled.noticeProtocol (h : s.Settled) : (noticeProtocol p s).Settled := by
  cases p with
  | car c =>
    rcases s.noticeCar_eq c .protocol with e | e <;> rw [Machine.noticeProtocol, e]
    · exact h
    · exact h.setNotice _
  | supply => exact h.setNotice _
  | panel => exact h.setNotice _

theorem State.Settled.opcodeUnit (h : s.Settled) (code : Byte) : (opcodeUnit p code s).Settled := by
  have ended : (endPrevious p s).Settled := h.updPort
  unfold Machine.opcodeUnit
  split
  · unfold startRequest
    split
    · exact ended.linkUp.updPort (f := fun i => { i with reply := _ })
    · split
      · exact ended.complete fun k => k
      · split
        · exact ended.complete fun k => k.requestAct p _ []
        · exact ended.updPort
  · exact ended.complete fun k => k.noticeProtocol

/-- A latch of the profile leaves the account while the car is not powered: a standing charge is all that the
account reads of a profile (R25). -/
theorem profileLatch_sameAccount {c : CarIx} {s : State} (off : (s.car c).powered = false)
    (args : List Byte) :
    SameAccount s (s.updCar c fun r => { r with profile := latchProfile args r.profile }) := by
  refine .updCar ?_
  simp [CarRecord.bill, CarRecord.charge, CarRecord.baseCharge, CarRecord.standing, off]

theorem State.Settled.profileUnit (h : s.Settled) {c : CarIx} (q : InProgress)
    (off : (s.role c).refusesProfile = false → (s.car c).powered = false) :
    (profileUnit c q s).Settled := by
  unfold Machine.profileUnit
  extract_lets latch
  have latched (t : State) (ht : t.Settled) (same : (t.car c).powered = false) : (latch t).Settled :=
    ht.of_same (profileLatch_sameAccount same q.args) rfl
  split
  · exact h.updPort
  · split
    · exact h.complete fun k => k
    · rename_i takes
      have idle := off (Bool.eq_false_iff.2 takes)
      split
      · exact (latched s h idle).updPort
      · refine h.complete fun k => latched _ k ?_
        show ((carLinkUp c (setRequest (.car c) none s)).car c).powered = false
        rw [carLinkUp, State.updCar_car_same]
        split <;> exact idle

theorem State.Settled.offerUnit (h : s.Settled) (q : InProgress) : (offerUnit q s).Settled := by
  unfold Machine.offerUnit
  split
  · exact (h.offerStep q.args).updPort
  · exact h.complete fun k => k.offerStep q.args

/-- A unit of a port leaves a settled state settled, where a car that takes a PROFILE is not powered. -/
theorem State.Settled.argUnit (h : s.Settled) (data : Byte)
    (off : ∀ c, p = .car c → (s.role c).refusesProfile = false → (s.car c).powered = false) :
    (argUnit p data s).Settled := by
  unfold Machine.argUnit
  split
  · unfold handUnit
    split
    · exact h.profileUnit _ (off _ rfl)
    · exact h.offerUnit _
    · split
      · exact h.updPort
      · exact h.complete fun k => k.requestAct _ _ _
  · split
    · exact h.updPort
    · exact h

theorem State.Settled.keptByUnits (noCar : ∀ c, p ≠ .car c) : KeptByUnits p State.Settled where
  lines _ _ _ h := h.updPort
  argUnit _ data h := h.argUnit data fun c e => absurd e (noCar c)
  opcodeUnit _ code h := h.opcodeUnit code

end

/-! ## The expiries, the store and reset -/

/-- After a reset nothing is held and no condition is evaluated. -/
theorem State.settled_of_reset {s : State} (phase : s.plan.phase = .start)
    (none : s.account.overcommit = .none) (shed : s.shed = .atReset) : s.Settled := by
  refine s.settled_iff.2 ⟨?_, fun _ => shed, fun holding => ?_⟩
  · rw [none, State.anyCondition_quiet (by rw [phase]; rfl)]
    decide
  · rw [none] at holding; cases holding

/-- If a command answers a next state, that state is settled. -/
def Answer.Settled (a : Answer) : Prop := ∀ t, a = .next t → t.Settled

/-- An act that its condition guards leaves a settled state settled, if it does so itself. -/
theorem Answer.settled_guarded {P : Prop} {inst : Decidable P} {s t : State} (h : s.Settled)
    (acts : t.Settled) : Answer.Settled (.next (if P then t else s)) := by
  rintro _ ⟨⟩
  split
  · exact acts
  · exact h

/-- A command of no port, a timer's or the store's, leaves a settled state settled. -/
theorem exec_settled_of_no_sender {s : State} (h : s.Settled) {i : Instr} (own : senderOf i = none) :
    Answer.Settled (exec i s) := by
  have control := h.controlled
  have closed {t : State} (k : t.control = s.control) : (closeEvent {} s t).Settled :=
    (control.of_control k).ready.closeEvent {} s
  cases i with
  | carLinkTimeout c => exact Answer.settled_guarded h (closed (loseCarLink_control s c))
  | supplyLinkTimeout =>
    exact Answer.settled_guarded h (h.of_same (.parts rfl rfl rfl rfl rfl) rfl)
  | panelLinkTimeout => exact Answer.settled_guarded h (h.of_same (.parts rfl rfl rfl rfl rfl) rfl)
  | settleExpiry => exact Answer.settled_guarded h (closed (settleExpires_control s))
  | returnTimerExpiry => exact Answer.settled_guarded h (h.of_same (.parts rfl rfl rfl rfl rfl) rfl)
  | recallSupervisionExpiry c => exact Answer.settled_guarded h (closed (recallExpires_control s c))
  | startWindowExpiry =>
    refine Answer.settled_guarded h (h.of_same ?_ (startWindowExpires_control s))
    unfold startWindowExpires
    split
    · rename_i c _
      have flagged : SameAccount s (s.updTrip c fun x => { x with startOverdue := true }) :=
        .updCar (by rfl)
      exact flagged.trans (.parts rfl rfl rfl rfl rfl)
    · exact .refl s
  | panelWindowExpiry =>
    refine Answer.settled_guarded h (h.of_same ?_ (endPanelHold_control s))
    unfold endPanelHold
    dsimp only
    split <;> exact .parts rfl rfl rfl rfl rfl
  | recoveryExpiry => exact Answer.settled_guarded h (closed rfl)
  | fairnessExpiry => exact Answer.settled_guarded h (closed rfl)
  | headAgeExpiry => exact Answer.settled_guarded h (closed rfl)
  | shedSupervisionExpiry c =>
    exact Answer.settled_guarded h (control.shedExpires.ready.closeEvent _ _)
  | storeProgrammingEnd => exact Answer.settled_guarded h (closed (programmingEnds_control s))
  | reset => rintro _ ⟨⟩; exact State.settled_of_reset rfl rfl rfl
  | resetRelease carsel single => exact Answer.settled_guarded h (State.settled_of_reset rfl rfl rfl)
  | _ => cases own

end Sys2Proof.Machine
end

section
/-!
PROOFS. A car that is not in RECALL, SERVICE or LOST is not powered, through everything its port can bring: what
of the car's role, queue entry and place in the recall list keeps this so; and O53, whose one point beside the
evaluation is that a PROFILE, which changes a standing charge with no evaluation after it, is taken in no other
role (R44, R45).
-/

namespace Sys2Proof.Machine

/-! ## The records, the queue and the list after an operation -/

section
variable (s : State) (c d : CarIx)

@[simp] theorem setEntries_entries (l : List CarIx) : (setEntries l s).queue.entries = l := by
  unfold setEntries
  dsimp only
  split
  · rfl
  · split <;> rfl

theorem removeEntry_entries :
    (removeEntry c s).queue.entries = s.queue.entries.filter (fun d => d != c) :=
  setEntries_entries s _

theorem not_mem_removeEntry : c ∉ (removeEntry c s).queue.entries := by
  simp [removeEntry_entries]

theorem dropEntry_entries (r : DropReason) : (dropEntry c r s).queue.entries =
    if (s.trip c).state = .waiting then s.queue.entries.filter (fun d => d != c)
    else s.queue.entries := by
  unfold dropEntry
  split
  · rw [State.noticeCar_queue, State.updTrip_queue, removeEntry_entries]
  · rfl

theorem dropEntry_sublist (r : DropReason) :
    (dropEntry c r s).queue.entries.Sublist s.queue.entries := by
  rw [dropEntry_entries]
  split
  · exact List.filter_sublist
  · exact .refl _

theorem leavePlan_car : (leavePlan c s).car d =
    if d = c then { s.car c with recallTimer := none, slotStart := none } else s.car d := by
  show (s.updCar c fun r => { r with recallTimer := none, slotStart := none }).car d = _
  rw [State.updCar_car]
  split
  · rename_i same; rw [same]
  · rfl

theorem not_listed_filter (l : List RecallEntry) :
    ∀ e ∈ l.filter (fun e => e.car != c), e.car ≠ c := by
  simp

theorem park_car : (park c s).car d =
    if d = c then { s.car c with powered := false, role := .parked, recallTimer := none,
                                 slotStart := none } else s.car d := by
  unfold park
  rw [leavePlan_car]
  split
  · rw [State.updCar_car_same]
  · rename_i ne; rw [State.updCar_car_ne _ _ ne]

theorem callCar_queue : (callCar c s).queue = s.queue := by
  unfold callCar
  split
  · rfl
  · rw [State.noticeCar_queue]; rfl

theorem callCar_sublist : (callCar c s).plan.recallList.Sublist s.plan.recallList := by
  unfold callCar
  split
  · exact List.filter_sublist
  · rw [State.noticeCar_plan]; exact .refl _

/-- A called car is PARKED at its recall landing and takes role RECALL elsewhere (R107). -/
theorem callCar_car : (callCar c s).car d = if d = c then
    if (s.car c).position = .atRecall then (park c s).car c
    else { s.car c with
      role := .recall, slotStart := some s.now,
      recallTimer := s.startTimer (superviseLimit (multiplier s.store.active) (s.car c).profile.trun),
      trip := { (s.car c).trip with recallOverdue := false } }
    else s.car d := by
  unfold callCar
  split
  · split
    · rename_i same; rw [same]
    · rename_i ne; rw [park_car, if_neg ne]
  · rw [State.noticeCar_car, State.updCar_car]
    split
    · rename_i same; rw [same]
    · rfl

theorem State.noticeCars_car (k : CarNotice) : (s.noticeCars k).car c = s.car c :=
  List.foldlRecOn (motive := fun t : State => t.car c = s.car c) allCars
    (fun t d => t.noticeCar d k) rfl fun t h d _ => (t.noticeCar_car d c k).trans h

theorem State.noticeCars_queue (k : CarNotice) : (s.noticeCars k).queue = s.queue :=
  List.foldlRecOn (motive := fun t : State => t.queue = s.queue) allCars
    (fun t d => t.noticeCar d k) rfl fun t h d _ => (t.noticeCar_queue d k).trans h

theorem endRecall_car : (endRecall s).car c = s.car c := by
  unfold endRecall enterPhase
  rw [State.noticePanel_car, State.noticeCars_car]
  rfl

theorem endRecall_queue : (endRecall s).queue = s.queue := by
  unfold endRecall enterPhase
  rw [State.noticePanel_queue, State.noticeCars_queue]
  rfl

theorem deselect_car : (deselect c s).car d = if d = c then
    { (dropEntry c .role s).car c with powered := false, role := .parked, recallTimer := none,
                                       slotStart := none, pendDesel := false }
    else s.car d := by
  unfold deselect
  rw [State.noticeCar_car, State.updCar_car, park_car]
  split
  · rfl
  · rename_i ne
    rw [dropEntry_car, if_neg fun h => ne h.1]

theorem deselect_queue : (deselect c s).queue = (dropEntry c .role s).queue := by
  simp only [deselect, State.noticeCar_queue, State.updCar_queue, park, leavePlan]

theorem deselect_plan : (deselect c s).plan = { s.plan with
    recallList := s.plan.recallList.filter (fun e => e.car != c)
    serviceOrder := s.plan.serviceOrder.filter (fun d => d != c) } := by
  unfold deselect
  rw [State.noticeCar_plan]
  show (park c (dropEntry c .role s)).plan = _
  unfold park leavePlan
  simp

theorem orderToLand_car (k : VictimKind) (n : Nat) : (orderToLand c k n s).car d =
    if d = c then { s.car c with trip := { s.trip c with shedOrdered := true } } else s.car d := by
  show ((s.updTrip c fun x => { x with shedOrdered := true }).noticeCar c .shed).car d = _
  rw [State.noticeCar_car]
  split
  · rename_i same; subst same; rw [State.updTrip, State.updCar_car_same]; rfl
  · rename_i ne; rw [State.updTrip_car_ne _ _ ne]

theorem orderToLand_queue (k : VictimKind) (n : Nat) : (orderToLand c k n s).queue = s.queue := by
  simp [orderToLand]

theorem orderToLand_plan (k : VictimKind) (n : Nat) : (orderToLand c k n s).plan = s.plan := by
  simp [orderToLand]

theorem selectCar_queue : (selectCar c s).queue = s.queue := by simp [selectCar]

theorem carGrant_entries : (carGrant c s).queue.entries =
    s.queue.entries.filter (fun d => d != c) := by
  unfold carGrant
  rw [State.noticeCar_queue]
  exact removeEntry_entries _ c

/-- Insertion adds the element and keeps the others. -/
theorem insertBy_perm {α : Type} (before : α → α → Bool) (x : α) :
    ∀ l : List α, (insertBy before x l).Perm (x :: l)
  | [] => .refl _
  | y :: ys => by
    unfold insertBy
    split
    · exact .refl _
    · exact ((insertBy_perm before x ys).cons y).trans (.swap x y ys)

end

/-! ## A car's power and its role -/

/-- What a record says of its car's place: role, pre-loss role and power. -/
def CarRecord.post (r : CarRecord) : Role × Option Role × Bool := (r.role, r.preLoss, r.powered)

/-- What the car's role, entry and power owe one another while its own port's commands run. -/
structure State.CarAgrees (s : State) (c : CarIx) : Prop where
  waits : c ∈ s.queue.entries →
    (s.trip c).state = .waiting ∧ (s.role c = .recall ∨ s.role c = .service)
  listed : ∀ e ∈ s.plan.recallList, e.car = c → s.role c = .held
  once : s.plan.recallList.countP (fun e => e.car == c) ≤ 1
  powered : (s.car c).powered = true → (s.role c).refusesProfile = true
  poweredLost : (s.car c).powered = true → s.role c = .lost →
    (s.car c).preLoss = some .recall ∨ (s.car c).preLoss = some .service
  quiet : s.plan.phase.generator = false → (s.car c).powered = false

namespace State.CarAgrees

variable {s t : State} {c : CarIx}

theorem of_consistent (h : s.Consistent) (c : CarIx) : s.CarAgrees c where
  waits queued :=
    have waiting := (h.queueExact c).1 queued
    ⟨waiting, h.waitingRole c waiting⟩
  listed e he same := same ▸ (h.listHeld e he).1
  once := by
    have one := List.nodup_iff_count_le_one.1 h.listNodup c
    rwa [List.count, List.countP_map] at one
  powered on := by
    rcases h.chargedRole c (.inl on) with e | e | e <;> rw [e] <;> rfl
  poweredLost on := h.chargedLost c (.inl on)
  quiet out := by
    have quiet : s.plan.phase.quiet = true := by
      revert out; cases s.plan.phase <;> simp [Phase.generator, Phase.quiet]
    exact ((h.quiet quiet).2 c).2

/-- An act that leaves the car's post and admits neither it nor anything to the list. -/
theorem of_same (h : s.CarAgrees c) (post : (t.car c).post = (s.car c).post)
    (queue : c ∈ t.queue.entries → c ∈ s.queue.entries ∧ (t.trip c).state = (s.trip c).state)
    (list : t.plan.recallList.Sublist s.plan.recallList)
    (phase : t.plan.phase.generator = s.plan.phase.generator) : t.CarAgrees c := by
  simp only [CarRecord.post, Prod.mk.injEq] at post
  obtain ⟨role, preLoss, power⟩ := post
  have role' : t.role c = s.role c := role
  refine ⟨fun queued => ?_, fun e he same => ?_, list.countP_le.trans h.once, ?_, ?_, ?_⟩
  · obtain ⟨was, state⟩ := queue queued
    rw [role', state]
    exact h.waits was
  · rw [role']
    exact h.listed e (list.subset he) same
  · rw [role', power]; exact h.powered
  · rw [role', preLoss, power]; exact h.poweredLost
  · rw [phase, power]; exact h.quiet

/-- A car that is out of the queue, off the list and unpowered agrees, whatever its role. -/
theorem of_off (off : (t.car c).powered = false) (queue : c ∉ t.queue.entries)
    (list : ∀ e ∈ t.plan.recallList, e.car ≠ c) : t.CarAgrees c where
  waits queued := absurd queued queue
  listed e he same := absurd same (list e he)
  once := by
    rw [List.countP_eq_zero.2 fun e he => by simpa using list e he]
    exact Nat.zero_le 1
  powered on := by rw [off] at on; cases on
  poweredLost on := by rw [off] at on; cases on
  quiet _ := off

theorem off (h : s.CarAgrees c) (role : (s.role c).refusesProfile = false) :
    (s.car c).powered = false := by
  cases e : (s.car c).powered
  · rfl
  · rw [h.powered e] at role; cases role

theorem not_queued (h : s.CarAgrees c) (role : s.role c ≠ .recall ∧ s.role c ≠ .service) :
    c ∉ s.queue.entries := fun queued => (h.waits queued).2.elim role.1 role.2

theorem not_queued_of_state (h : s.CarAgrees c) (state : (s.trip c).state ≠ .waiting) :
    c ∉ s.queue.entries := fun queued => state (h.waits queued).1

theorem not_listed (h : s.CarAgrees c) (role : s.role c ≠ .held) :
    ∀ e ∈ s.plan.recallList, e.car ≠ c := fun e he same => role (h.listed e he same)

/-! ## The moves of a closing event -/

theorem not_mem_dropEntry (h : s.CarAgrees c) (r : DropReason) :
    c ∉ (dropEntry c r s).queue.entries := by
  rw [dropEntry_entries]
  split
  · simp
  · rename_i state; exact h.not_queued_of_state state

theorem dropEntry (h : s.CarAgrees c) (d : CarIx) (r : DropReason) :
    (dropEntry d r s).CarAgrees c := by
  refine h.of_same ?_ (fun queued => ⟨(dropEntry_sublist s d r).subset queued, ?_⟩)
    (by simp) (by simp)
  · rw [dropEntry_car]
    split
    · rename_i same; rw [same.1]; rfl
    · rfl
  · rw [dropEntry_trip]
    split
    · rename_i same
      rw [same.1] at h queued
      exact absurd queued (h.not_mem_dropEntry r)
    · rfl

theorem deselect (h : s.CarAgrees c) (d : CarIx) : (deselect d s).CarAgrees c := by
  by_cases same : c = d
  · subst same
    refine of_off ?_ ?_ ?_
    · rw [deselect_car, if_pos rfl]
    · rw [deselect_queue]; exact h.not_mem_dropEntry .role
    · rw [deselect_plan]; exact not_listed_filter c _
  · refine h.of_same ?_ (fun queued => ?_) ?_ ?_
    · rw [deselect_car, if_neg same]
    · rw [deselect_queue] at queued
      exact ⟨(dropEntry_sublist s d .role).subset queued, by
        rw [State.trip, deselect_car, if_neg same, State.trip]⟩
    · rw [deselect_plan]; exact List.filter_sublist
    · rw [deselect_plan]

theorem call (h : s.CarAgrees c) {e : RecallEntry} {rest : List RecallEntry}
    (list : s.plan.recallList = e :: rest) :
    (callCar e.car { s with plan := { s.plan with recallList := rest } }).CarAgrees c := by
  by_cases same : c = e.car
  · have role : s.role c = .held :=
      h.listed e (by rw [list]; exact List.mem_cons_self ..) same.symm
    have alone : ∀ x ∈ rest, x.car ≠ c := by
      have one := h.once
      rw [list, List.countP_cons_of_pos (by simp [same])] at one
      have zero := List.countP_eq_zero.1 (Nat.le_zero.1 (Nat.le_of_succ_le_succ one))
      exact fun x hx => by simpa using zero x hx
    refine of_off ?_ ?_ fun x hx => alone x ((callCar_sublist _ _).subset hx)
    · have idle := h.off (by rw [role]; rfl)
      rw [callCar_car, if_pos same]
      split
      · rw [park_car, if_pos rfl]
      · rw [← same]; exact idle
    · rw [callCar_queue]
      exact h.not_queued (by rw [role]; decide)
  · refine h.of_same ?_ (fun queued => ?_) ((callCar_sublist _ _).trans ?_) ?_
    · rw [callCar_car, if_neg same]; rfl
    · rw [callCar_queue] at queued
      exact ⟨queued, by rw [State.trip, callCar_car, if_neg same]; rfl⟩
    · rw [list]; exact List.sublist_cons_self e rest
    · rw [callCar_phase]

/-- An act on the trip of another car, or on what a car's post does not read of this one's. -/
theorem of_plan (h : s.CarAgrees c) (post : (t.car c).post = (s.car c).post)
    (state : (t.trip c).state = (s.trip c).state) (queue : t.queue.entries = s.queue.entries)
    (plan : t.plan = s.plan) : t.CarAgrees c :=
  h.of_same post (fun queued => ⟨queue ▸ queued, state⟩) (by rw [plan]) (by rw [plan])

theorem orderToLand (h : s.CarAgrees c) (d : CarIx) (k : VictimKind) (n : Nat) :
    (orderToLand d k n s).CarAgrees c := by
  refine h.of_plan ?_ ?_ (by rw [orderToLand_queue]) (by rw [orderToLand_plan])
  · rw [orderToLand_car]; split
    · rename_i same; rw [same]; rfl
    · rfl
  · rw [State.trip, orderToLand_car]; split
    · rename_i same; rw [same]
    · rfl

theorem selectCar (h : s.CarAgrees c) {d : CarIx} (parked : s.role d = .parked)
    (service : s.plan.phase = .service) : (selectCar d s).CarAgrees c := by
  by_cases same : c = d
  · subst same
    have out := h.not_queued (by rw [parked]; decide)
    have unlisted := h.not_listed (by rw [parked]; decide)
    have role : (Machine.selectCar c s).role c = .service := by
      rw [State.role, selectCar_car, if_pos rfl]
    refine ⟨?_, ?_, ?_, ?_, ?_, ?_⟩
    · rw [selectCar_queue]; exact fun queued => absurd queued out
    · rw [selectCar_plan]; exact fun e he eq => absurd eq (unlisted e he)
    · rw [selectCar_plan]; exact h.once
    · rw [role]; exact fun _ => rfl
    · rw [role]; exact fun _ e => by cases e
    · rw [selectCar_plan, service]; exact fun e => by cases e
  · refine h.of_same ?_ (fun queued => ?_) ?_ ?_
    · rw [selectCar_car, if_neg same]
    · rw [selectCar_queue] at queued
      exact ⟨queued, by rw [State.trip, selectCar_car, if_neg same]; rfl⟩
    · rw [selectCar_plan]
    · rw [selectCar_plan]

theorem carGrant (h : s.CarAgrees c) {d : CarIx} (queued : d ∈ s.queue.entries)
    (phase : s.plan.phase = .recall ∨ s.plan.phase = .service) : (carGrant d s).CarAgrees c := by
  have entries : ∀ x, x ∈ (Machine.carGrant d s).queue.entries → x ∈ s.queue.entries ∧ x ≠ d := by
    rw [carGrant_entries]; simp
  by_cases same : c = d
  · subst same
    obtain ⟨-, inPlan⟩ := h.waits queued
    have role : (Machine.carGrant c s).role c = s.role c := by
      rw [State.role, carGrant_car, if_pos rfl]; rfl
    have unlisted := h.not_listed (by rcases inPlan with e | e <;> rw [e] <;> decide)
    refine ⟨?_, ?_, ?_, ?_, ?_, ?_⟩
    · exact fun q => absurd rfl (entries c q).2
    · rw [carGrant_plan]; exact fun e he eq => absurd eq (unlisted e he)
    · rw [carGrant_plan]; exact h.once
    · rw [role]; rcases inPlan with e | e <;> rw [e] <;> exact fun _ => rfl
    · rw [role]; rcases inPlan with e | e <;> rw [e] <;> exact fun _ e => by cases e
    · rw [carGrant_plan]; rcases phase with e | e <;> rw [e] <;> exact fun e => by cases e
  · refine h.of_same ?_ (fun q => ⟨(entries c q).1, ?_⟩) ?_ ?_
    · rw [carGrant_car, if_neg same]
    · rw [State.trip, carGrant_car, if_neg same]; rfl
    · rw [carGrant_plan]
    · rw [carGrant_plan]

theorem move (h : s.CarAgrees c) (m : Move s t) : t.CarAgrees c := by
  cases m with
  | call e rest list can => exact h.call list
  | endRecall ended =>
    refine h.of_same ?_ (fun queued => ?_) ?_ ?_
    · rw [endRecall_car]
    · rw [endRecall_queue] at queued
      exact ⟨queued, by rw [State.trip, endRecall_car]; rfl⟩
    · rw [endRecall_plan]
    · rw [endRecall_plan, recallOver_phase ended]; rfl
  | overcommitBegins => exact h.of_plan rfl rfl rfl rfl
  | overcommitEnds => exact h.of_plan rfl rfl rfl rfl
  | drop d r => exact h.dropEntry d r
  | deselect d => exact h.deselect d
  | land d => exact h.orderToLand d _ _
  | landReverse d => exact h.orderToLand d _ _
  | select d allowed can =>
    simp only [canSelect, Bool.and_eq_true, beq_iff_eq] at can
    simp only [selectionAllowed, Bool.and_eq_true, beq_iff_eq] at allowed
    exact h.selectCar can.1.1.1 allowed.1.1
  | carGrant d opened allowed candidate =>
    have queued : d ∈ s.queue.entries := by
      unfold candidates at candidate
      split at candidate
      · exact candidate
      · exact List.mem_of_mem_take candidate
    exact h.carGrant queued ((carGrantAllowed_iff s).1 allowed).1
  | panelGrant e => exact h.of_plan rfl rfl rfl rfl
  | draw n => exact h.of_plan rfl rfl rfl rfl

theorem moves (h : s.CarAgrees c) (m : Moves s t) : t.CarAgrees c :=
  Moves.keeps (P := fun x => x.CarAgrees c) (fun _ _ hx k => hx.move k) m h

theorem closeEvent (h : s.CarAgrees c) (k : Cause) (s0 : State) : (closeEvent k s0 s).CarAgrees c :=
  h.moves (closeEvent_moves k s0 s)

end State.CarAgrees

end Sys2Proof.Machine
end

section
/-!
PROOFS. The acts of a car's own requests keep what its role, entry and power owe one another, so a PROFILE finds
it unpowered; and O53.
-/

namespace Sys2Proof.Machine

namespace State.CarAgrees

variable {s t : State} {c : CarIx}

/-! ## Single acts -/

/-- An act on what of the car's record its post does not read. -/
theorem updCar (h : s.CarAgrees c) {f : CarRecord → CarRecord} (post : ∀ r, (f r).post = r.post)
    (state : ∀ r, (f r).trip.state = r.trip.state) : (s.updCar c f).CarAgrees c :=
  h.of_plan (by rw [State.updCar_car_same, post]) (by rw [State.trip, State.updCar_car_same, state]; rfl)
    rfl rfl

/-- The trip of a car that is not queued may take any state. -/
theorem updTrip (h : s.CarAgrees c) {f : Trip → Trip} (out : c ∉ s.queue.entries) :
    (s.updTrip c f).CarAgrees c :=
  h.of_same (by rw [State.updTrip, State.updCar_car_same]; rfl) (fun queued => absurd queued out)
    (.refl _) rfl

theorem updPort (h : s.CarAgrees c) {p : Port} {f : PortIf → PortIf} : (s.updPort p f).CarAgrees c :=
  h.of_plan rfl rfl rfl rfl

theorem noticeCar (h : s.CarAgrees c) (d : CarIx) (k : CarNotice) : (s.noticeCar d k).CarAgrees c :=
  h.of_plan (by simp) (by simp [State.trip]) (by simp) (by simp)

theorem park (out : c ∉ s.queue.entries) : (park c s).CarAgrees c :=
  of_off (by rw [park_car, if_pos rfl]) out (not_listed_filter c s.plan.recallList)

theorem removeEntry (h : s.CarAgrees c) : (removeEntry c s).CarAgrees c :=
  h.of_same (by simp) (fun queued => absurd queued (not_mem_removeEntry s c))
    (by rw [Machine.removeEntry, setEntries_plan]) (by rw [Machine.removeEntry, setEntries_plan])

theorem withdrawCar (h : s.CarAgrees c) : (withdrawCar c s).CarAgrees c := by
  refine of_off ?_ (h.not_mem_dropEntry .role) (not_listed_filter c _)
  unfold Machine.withdrawCar makeUnavailable clearPending
  rw [State.updCar_car_same, leavePlan_car, if_pos rfl, State.updCar_car_same]

theorem parkingCheck (h : s.CarAgrees c) : (parkingCheck c s).CarAgrees c := by
  unfold Machine.parkingCheck
  split
  · rename_i idle
    have out := h.not_queued_of_state (by rw [idle.2]; decide)
    split
    · split
      · exact .park out
      · exact h
    · split
      · exact .park out
      · exact h
    · split
      · exact .park out
      · refine of_off ?_ out (not_listed_filter c _)
        rw [leavePlan_car, if_pos rfl, State.updCar_car_same]
    · exact h
  · exact h

theorem deselectionCheck (h : s.CarAgrees c) : (deselectionCheck c s).CarAgrees c := by
  unfold Machine.deselectionCheck
  split
  · exact h.deselect c
  · exact h

theorem clearanceCheck (h : s.CarAgrees c) : (clearanceCheck s).CarAgrees c := by
  unfold Machine.clearanceCheck
  split
  · exact h.of_same rfl (fun queued => ⟨queued, rfl⟩) (.refl _) rfl
  · exact h

theorem endWindowOf (h : s.CarAgrees c) : (endWindowOf c s).CarAgrees c := by
  unfold Machine.endWindowOf
  split
  · exact h.of_plan rfl rfl rfl rfl
  · exact h

theorem endTrip (h : s.CarAgrees c) (out : c ∉ s.queue.entries) : (endTrip c s).CarAgrees c :=
  have ended : (Machine.endWindowOf c (s.updTrip c fun x => { x with state := .none })).CarAgrees c :=
    (h.updTrip out).endWindowOf
  ended.of_plan rfl rfl rfl rfl

theorem endTrip_queue (c : CarIx) (s : State) : (Machine.endTrip c s).queue = s.queue := by
  have window (t : State) : (Machine.endWindowOf c t).queue = t.queue := by
    unfold Machine.endWindowOf
    split <;> rfl
  exact window _

/-! ## The requests of the trip -/

theorem refuseTrip (h : s.CarAgrees c) (r : RefuseReason) : (refuseTrip c r s).1.CarAgrees c :=
  (h.of_plan (t := s.updTrip c fun x => { x with verdict := .refused r })
    (by rw [State.updTrip, State.updCar_car_same]; rfl) (by rw [State.updTrip_trip_same]) rfl rfl
    ).noticeCar c .refused

theorem computeTrip (h : s.CarAgrees c) (dir load : Byte) : (computeTrip c dir load s).CarAgrees c :=
  h.of_plan (by rw [Machine.computeTrip, State.updTrip, State.updCar_car_same]; rfl)
    (by rw [Machine.computeTrip, State.updTrip_trip_same]; rfl) rfl rfl

theorem admitEntry (h : s.CarAgrees c) (role : s.role c = .recall ∨ s.role c = .service) :
    (admitEntry c s).CarAgrees c := by
  have car : (Machine.admitEntry c s).car c = { s.car c with trip := { s.trip c with
      state := .waiting, purpose := some (purposeOf (s.role c)), stamp := some s.queue.nextStamp,
      verdict := .none } } := by
    show (setEntries _ _).car c = _
    rw [setEntries_car, State.updTrip, State.updCar_car_same]
    rfl
  have plan : (Machine.admitEntry c s).plan = s.plan := setEntries_plan _ _
  have same : (Machine.admitEntry c s).role c = s.role c := by rw [State.role, car]; rfl
  refine ⟨fun _ => ⟨?_, by rw [same]; exact role⟩, ?_, ?_, ?_, ?_, ?_⟩
  · rw [State.trip, car]
  · rw [plan, same]; exact h.listed
  · rw [plan]; exact h.once
  · rw [same, car]; exact h.powered
  · rw [same, car]; exact h.poweredLost
  · rw [plan, car]; exact h.quiet

theorem takeTrip (h : s.CarAgrees c) (dir load : Byte) : (takeTrip c dir load s).1.CarAgrees c := by
  have computed := h.computeTrip dir load
  have sameRole : (Machine.computeTrip c dir load s).role c = s.role c := by
    rw [Machine.computeTrip, State.updTrip_role]
  have fresh (role : s.role c = .recall ∨ s.role c = .service) :
      (freshTrip c dir load s).1.CarAgrees c := by
    unfold freshTrip
    dsimp only
    split
    · exact computed.refuseTrip _
    · exact computed.admitEntry (by rw [sameRole]; exact role)
  have updated : (updateTrip c dir load s).1.CarAgrees c := by
    unfold updateTrip
    dsimp only
    split
    · exact (computed.removeEntry.updTrip (not_mem_removeEntry _ c)).refuseTrip _
    · exact computed
  unfold Machine.takeTrip
  split
  · exact h
  · exact h
  · exact h.refuseTrip _
  · exact h.refuseTrip _
  all_goals
    split
    · exact h.refuseTrip _
    · rename_i inPlan
      have role : s.role c = .recall ∨ s.role c = .service := by
        by_contra no; exact inPlan (not_or.1 no)
      split
      · exact h.refuseTrip _
      · exact h.refuseTrip _
      · exact updated
      · exact fresh role

theorem withdrawTrip (h : s.CarAgrees c) : (withdrawTrip c s).CarAgrees c := by
  unfold Machine.withdrawTrip
  split
  · exact h.removeEntry.updTrip (not_mem_removeEntry s c)
  · exact h

theorem atSpeed (h : s.CarAgrees c) : (atSpeed c s).CarAgrees c := by
  unfold Machine.atSpeed
  split
  · rename_i starts
    exact (h.updTrip (h.not_queued_of_state (by rw [starts.2]; decide))).endWindowOf
  · exact h

/-- A trip that moves ends: whatever the order of the parking and a grant, the car agrees (R76). -/
theorem tripEnded (h : s.CarAgrees c) (moves : (s.trip c).state ≠ .waiting) :
    (tripEnded c s).CarAgrees c := by
  have out := h.not_queued_of_state moves
  have ended := h.endTrip out
  have stages : (tripEndStages c s).CarAgrees c := by
    have pending : (applyPending c (Machine.endTrip c s)).CarAgrees c := by
      unfold applyPending
      split
      · refine of_off ?_ ?_ (not_listed_filter c _)
        · unfold makeUnavailable clearPending
          rw [State.updCar_car_same, leavePlan_car, if_pos rfl, State.updCar_car_same]
        · show c ∉ (Machine.endTrip c s).queue.entries
          rw [endTrip_queue]; exact out
      · exact ended
    exact pending.of_plan rfl rfl rfl rfl
  have parkedFirst := (stages.parkingCheck.deselectionCheck.clearanceCheck).closeEvent {} s
  have early : (earlyGrant s (Machine.deselectionCheck c (tripEndStages c s))).CarAgrees c := by
    have checked := stages.deselectionCheck
    unfold earlyGrant
    dsimp only
    split
    · exact checked
    · split
      · exact checked
      · exact checked.moves ((evaluate_moves _).trans (grantIfDue_moves s _))
  have grantFirst := (early.parkingCheck.clearanceCheck).closeEvent {} s
  unfold Machine.tripEnded
  dsimp only
  split
  · obtain ⟨n, e | e⟩ := eitherOrder_cases _ _
    · rw [e]; exact parkedFirst.of_plan rfl rfl rfl rfl
    · rw [e]; exact grantFirst.of_plan rfl rfl rfl rfl
  · exact parkedFirst

/-! ## STATE -/

theorem handBack (h : s.CarAgrees c) (held : s.role c = .held)
    (unlisted : ∀ e ∈ s.plan.recallList, e.car ≠ c) : (handBack c s).CarAgrees c := by
  have out := h.not_queued (by rw [held]; decide)
  have joined : (joinPlan c s).CarAgrees c := by
    unfold joinPlan
    split
    · exact .park out
    · have perm := insertBy_perm (recallBefore s.store.active) ⟨c, tierOf (s.car c)⟩ s.plan.recallList
      refine ⟨h.waits, fun _ _ _ => held, ?_, h.powered, h.poweredLost, h.quiet⟩
      show List.countP _ (insertBy _ _ s.plan.recallList) ≤ 1
      rw [perm.countP_eq, List.countP_cons_of_pos (by simp),
        List.countP_eq_zero.2 fun e he => by simpa using unlisted e he]
  unfold Machine.handBack
  split
  · exact joined.moves (runCalls_moves _)
  · exact h

/-- A record write that gives an unpowered car, off the queue and the list, another role. -/
theorem giveRole (h : s.CarAgrees c) {f : CarRecord → CarRecord}
    (off : (f (s.car c)).powered = false) (role : s.role c ≠ .recall ∧ s.role c ≠ .service)
    (unheld : s.role c ≠ .held) : (s.updCar c f).CarAgrees c :=
  of_off (by rw [State.updCar_car_same]; exact off) (h.not_queued role) (h.not_listed unheld)

theorem endFrozen (h : s.CarAgrees c) (lost : s.role c = .lost) (role : Role) :
    (endFrozen c role s).CarAgrees c ∧ (Machine.endFrozen c role s).role c = role ∧
      ∀ e ∈ (Machine.endFrozen c role s).plan.recallList, e.car ≠ c := by
  have out : c ∉ s.queue.entries := h.not_queued (by rw [lost]; decide)
  have checked (t : State) : (Machine.clearanceCheck t).plan.recallList = t.plan.recallList ∧
      (Machine.clearanceCheck t).queue = t.queue ∧ (Machine.clearanceCheck t).car c = t.car c := by
    unfold Machine.clearanceCheck
    split <;> exact ⟨rfl, rfl, rfl⟩
  unfold Machine.endFrozen
  extract_lets t u
  have listFree := not_listed_filter c u.plan.recallList
  obtain ⟨list, queue, car⟩ := checked (clearPending c (leavePlan c u))
  have record : (clearPending c (leavePlan c u)).car c =
      { u.car c with recallTimer := none, slotStart := none, pendExcl := false, pendUnavail := false,
                     pendDesel := false } := by
    rw [clearPending, State.updCar_car_same, leavePlan_car, if_pos rfl]
  have own : u.car c = { t.car c with powered := false, role := role, preLoss := none } :=
    State.updCar_car_same ..
  refine ⟨of_off ?_ ?_ ?_, ?_, ?_⟩
  · rw [car, record, own]
  · rw [queue]
    show c ∉ (Machine.endTrip c s).queue.entries
    rw [endTrip_queue]; exact out
  · rw [list]; exact listFree
  · rw [State.role, car, record, own]
  · rw [list]; exact listFree

theorem resolveReturn (h : s.CarAgrees c) : (resolveReturn c s).CarAgrees c := by
  have still (lost : s.role c = .lost) : (returnStill c s).CarAgrees c := by
    unfold returnStill
    dsimp only
    obtain ⟨agrees, role, unlisted⟩ := h.endFrozen lost (s.car c).returnRole
    split
    · rename_i held
      exact agrees.handBack (role.trans held) unlisted
    · exact agrees
  have exclusion (t : State) (ht : t.CarAgrees c) : (heldExclusion c t).CarAgrees c := by
    have marked (u : State) (hu : u.CarAgrees c) (b : Bool) :
        (u.updCar c fun r => { r with pendExcl := b }).CarAgrees c :=
      hu.updCar (fun _ => rfl) (fun _ => rfl)
    have applied (u : State) (hu : u.CarAgrees c) : (applyExclusion c u).CarAgrees c := by
      unfold applyExclusion
      split
      · exact hu.withdrawCar
      · exact hu.withdrawCar
      · split
        · exact hu.withdrawCar
        · exact marked u hu true
      · split
        · exact hu.withdrawCar
        · exact marked u hu true
      · split
        · exact marked u hu true
        · exact hu
      all_goals exact hu
    unfold heldExclusion
    split
    · exact applied _ (marked t ht false)
    · exact ht
  have moving (lost : s.role c = .lost) : (returnMoving c s).CarAgrees c := by
    have unlisted := h.not_listed (by rw [lost]; decide)
    have out := h.not_queued (by rw [lost]; decide)
    have restored : (s.updCar c fun r =>
        { r with role := ((s.car c).preLoss).getD .held, preLoss := none }).CarAgrees c := by
      cases on : (s.car c).powered with
      | false =>
        exact h.giveRole on (by rw [lost]; decide) (by rw [lost]; decide)
      | true =>
        refine ⟨fun q => absurd q out, fun e he same => absurd same (unlisted e he), h.once, ?_, ?_, ?_⟩
        all_goals rw [State.updCar_car_same]
        · rcases h.poweredLost on lost with e | e <;> simp [State.role, e, Role.refusesProfile]
        · rcases h.poweredLost on lost with e | e <;> simp [State.role, e]
        · exact h.quiet
    unfold returnMoving
    refine deselectionCheck (exclusion _ ?_)
    split
    · rename_i held
      exact restored.handBack (by rw [State.role, State.updCar_car_same]; exact held) unlisted
    · exact restored
  unfold Machine.resolveReturn
  split
  · rename_i lost
    split
    · exact still lost.1
    · exact moving lost.1
  · exact h

theorem availabilityRules (h : s.CarAgrees c) : (availabilityRules c s).CarAgrees c := by
  have marked (b : Bool) : (s.updCar c fun r => { r with pendUnavail := b }).CarAgrees c :=
    h.updCar (fun _ => rfl) (fun _ => rfl)
  unfold Machine.availabilityRules
  split
  · unfold nowAvailable
    extract_lets t
    have cleared : t.CarAgrees c := marked false
    split
    · rename_i back
      have away := back.1
      have held : (t.updCar c fun r => { r with role := .held }).CarAgrees c :=
        cleared.giveRole (cleared.off (by rw [away]; rfl)) (by rw [away]; decide)
          (by rw [away]; decide)
      exact held.handBack (by rw [State.role, State.updCar_car_same])
        (cleared.not_listed (by rw [away]; decide))
    · exact cleared
  · unfold notAvailable
    split
    · exact h.withdrawCar
    · exact h.withdrawCar
    · split
      · exact h.withdrawCar
      · exact marked true
    · split
      · exact h.withdrawCar
      · exact marked true
    all_goals exact h

theorem takeState (h : s.CarAgrees c) (unit : Byte) : (takeState c unit s).CarAgrees c := by
  have recorded : (recordStatus c unit s).CarAgrees c := h.updCar (fun _ => rfl) (fun _ => rfl)
  have ruled := recorded.resolveReturn.availabilityRules
  have checked : (motionCheck c (Machine.availabilityRules c
      (Machine.resolveReturn c (recordStatus c unit s)))).CarAgrees c := by
    unfold motionCheck
    split
    · exact ruled.of_plan rfl rfl rfl rfl
    · exact ruled
  exact checked.parkingCheck

/-! ## The units of the car's port -/

theorem requestAct (h : s.CarAgrees c) {r : Request} (own : r ∈ requestsOf (.car c))
    (args : List Byte) : (requestAct (.car c) r args s).1.CarAgrees c := by
  have closed {act : State → State × ReqOutcome} (k : (act s).1.CarAgrees c) :
      (closing {} act s).1.CarAgrees c := k.closeEvent {} s
  have accepted {f : State → State} (k : (f s).CarAgrees c) : (accepting f s).1.CarAgrees c := k
  simp only [requestsOf, commonRequests, carRequests, List.cons_append, List.nil_append,
    List.mem_cons, List.not_mem_nil, or_false] at own
  -- in the order of R148's table: the two common reads, TRIP to STATE, PROFILE and READ-CAR
  rcases own with rfl | rfl | rfl | rfl | rfl | rfl | rfl | rfl | rfl | rfl <;>
    simp only [Machine.requestAct]
  · exact h
  · exact h
  · exact closed (h.takeTrip _ _)
  · exact closed (accepted h.withdrawTrip)
  · exact closed (accepted h.atSpeed)
  · refine accepted ?_
    unfold startFailed
    split
    · rename_i starts; exact h.tripEnded (by rw [starts.2]; decide)
    · exact h
  · refine accepted ?_
    unfold carStopped
    split
    · rename_i moves
      exact h.tripEnded fun waits => by rw [waits] at moves; exact absurd moves.2 (by decide)
    · exact h
  · exact closed (accepted (h.takeState _))
  · exact h
  · exact h

theorem linkUp (h : s.CarAgrees c) : (linkUp (.car c) s).CarAgrees c := by
  show (carLinkUp c s).CarAgrees c
  unfold carLinkUp
  by_cases freed : s.role c = .lost ∧ s.plan.phase.generator = false
  · refine h.giveRole ?_ (by rw [freed.1]; decide) (by rw [freed.1]; decide)
    dsimp only
    split <;> exact h.quiet freed.2
  · have car : (s.car c).role = s.role c := rfl
    refine h.of_plan ?_ ?_ rfl rfl
    · rw [State.updCar_car_same]
      simp only [car, freed, if_false]
      rfl
    · rw [State.trip, State.updCar_car_same]
      simp only [car, freed, if_false]
      rfl

theorem complete (h : s.CarAgrees c) {act : State → State × ReqOutcome}
    (acts : ∀ v, v.CarAgrees c → (act v).1.CarAgrees c) : (complete (.car c) act s).CarAgrees c := by
  have asked : (setRequest (.car c) none s).CarAgrees c := h.updPort
  exact (acts _ asked.linkUp).updPort (f := fun i => { i with outcome := _ })

theorem opcodeUnit (h : s.CarAgrees c) (code : Byte) : (opcodeUnit (.car c) code s).CarAgrees c := by
  have ended : (endPrevious (.car c) s).CarAgrees c := h.updPort
  unfold Machine.opcodeUnit
  split
  · rename_i r named
    have own : r ∈ requestsOf (.car c) := List.mem_of_find?_eq_some named
    unfold startRequest
    split
    · exact ended.linkUp.updPort (f := fun i => { i with reply := _ })
    · split
      · exact ended.complete fun _ hv => hv
      · split
        · exact ended.complete fun _ hv => hv.requestAct own []
        · exact ended.updPort
  · exact ended.complete fun _ hv => hv.noticeCar c .protocol

theorem argUnit (h : s.CarAgrees c) (data : Byte)
    (own : ∀ q, (s.port (.car c)).request = some q → q.req ∈ requestsOf (.car c)) :
    (argUnit (.car c) data s).CarAgrees c := by
  have latched (t : State) (ht : t.CarAgrees c) (args : List Byte) :
      (t.updCar c fun r => { r with profile := latchProfile args r.profile }).CarAgrees c :=
    ht.updCar (fun _ => rfl) (fun _ => rfl)
  have profile (q : InProgress) : (profileUnit c q s).CarAgrees c := by
    unfold profileUnit
    dsimp only
    split
    · exact h.updPort
    · split
      · exact h.complete fun _ hv => hv
      · split
        · exact (latched s h q.args).updPort
        · exact h.complete fun v hv => latched v hv q.args
  unfold Machine.argUnit
  split
  · rename_i q asked
    have own := own q asked
    unfold handUnit
    split
    · rename_i same; cases same; exact profile _
    · rename_i offer
      rw [show q.req = .offer from offer] at own
      exact absurd own (by simp [requestsOf, commonRequests, carRequests])
    · split
      · exact h.updPort
      · exact h.complete fun _ hv => hv.requestAct own _
  · split
    · exact h.updPort
    · exact h

end State.CarAgrees

/-! ## The step -/

/-- What a command on car port c keeps, beginning in `s`: its reach, the settled account and controller, and
the car's role, entry and power. -/
structure CarPortKeeps (c : CarIx) (s t : State) : Prop where
  reach : CarReach c s t
  settled : t.Settled
  agrees : t.CarAgrees c

theorem CarPortKeeps.keptByUnits (c : CarIx) (s : State) :
    KeptByUnits (.car c) (CarPortKeeps c s) where
  lines t f same h := ⟨(CarReach.keptByUnits c s).lines t f same h.reach, h.settled.updPort,
    h.agrees.updPort⟩
  argUnit t data h := ⟨h.reach.argUnit data,
    h.settled.argUnit data fun d e takes => by cases e; exact h.agrees.off takes,
    h.agrees.argUnit data h.reach.own⟩
  opcodeUnit t code h := ⟨h.reach.opcodeUnit code, h.settled.opcodeUnit code,
    h.agrees.opcodeUnit code⟩

/-- A command leaves a settled state settled, whose records agree and whose requests are their own port's. -/
theorem exec_settled {s : State} (h : s.Settled) (records : s.Consistent)
    (own : ∀ p q, (s.port p).request = some q → q.req ∈ requestsOf p) (i : Instr) :
    Answer.Settled (exec i s) := by
  intro t run
  cases sender : senderOf i with
  | none => exact exec_settled_of_no_sender h sender t run
  | some p =>
    cases p with
    | car c =>
      exact ((CarPortKeeps.keptByUnits c s).exec sender run
        ⟨.refl (own (.car c)), h, .of_consistent records c⟩).settled
    | supply => exact (State.Settled.keptByUnits fun _ e => by cases e).exec sender run h
    | panel => exact (State.Settled.keptByUnits fun _ e => by cases e).exec sender run h

/-- What waits in the model's own fields is nothing that the records' agreement reads. -/
theorem State.Consistent.withPending {s : State} (h : s.Consistent) (pending : List Instr)
    (freeIx : Nat) : State.Consistent { s with pending := pending, freeIx := freeIx } :=
  ⟨h.queueNodup, h.queueExact, h.stackNodup, h.stackExact, h.waitingRole, h.listNodup, h.listHeld,
    h.chargedRole, h.chargedLost, h.quiet, h.closed, h.holder, h.windows, h.held, h.oneClaim,
    h.closedClaims⟩

/-- Settles O53: an event's closing evaluates what its acts left, and an act that closes no event leaves what
the account reads. -/
theorem overcommitSettledKept : Obligations.OvercommitSettledKept := by
  intro s t sound run
  have settled (pending : List Instr) (freeIx : Nat) :
      State.Settled { s with pending := pending, freeIx := freeIx } :=
    sound.settled.of_same (.parts rfl rfl rfl rfl rfl) rfl
  have commanded (i : Instr) (pending : List Instr) (freeIx : Nat) :
      Answer.Settled (exec i { s with pending := pending, freeIx := freeIx }) :=
    exec_settled (settled pending freeIx) (sound.consistent.withPending pending freeIx)
      sound.ports.own i
  unfold step at run
  split at run
  · exact commanded _ _ s.freeIx t run
  · unfold idle at run
    split at run
    · cases run
      exact sound.settled.of_same (.parts rfl rfl rfl rfl rfl) rfl
    · exact commanded _ s.pending s.freeIx t run
    · exact commanded _ s.pending _ t run

end Sys2Proof.Machine
end

section
/-!
PROOFS. The entries that wait, through the closing of an event (R92, R125): calls and the evaluation leave them,
a due re-check drops those that fail and no other, and after it an entry waits on, is granted, or goes with its
car's deselection while a condition holds.
-/

namespace Sys2Proof.Machine

/-- A notice set stays set through the part's decisions. -/
theorem OnlyDecisions.hasNotice {s t : State} (h : OnlyDecisions s t) {p : Port} {n : Nat}
    (set : s.hasNotice p n = true) : t.hasNotice p n = true := by
  have kept := h.notices p
  unfold noticesKept at kept
  unfold State.hasNotice at set ⊢
  rw [← kept, BitVec.getLsbD_and, Bool.and_eq_true] at set
  exact set.2

/-- A configured car is told of a kind set on its port. -/
theorem State.hasNotice_noticeCar {s : State} {c : CarIx} (configured : s.configured c = true)
    (k : CarNotice) : (s.noticeCar c k).hasNotice (.car c) k.number = true := by
  rw [State.noticeCar, if_pos configured, State.hasNotice, State.setNotice, State.updPort_port_same]
  cases k <;> simp [noticeBit, CarNotice.number]

theorem setEntries_gate (l : List CarIx) (s : State) : (setEntries l s).gate = s.gate := by
  unfold setEntries
  dsimp only
  split
  · rfl
  · split <;> rfl

theorem dropEntry_gate (c : CarIx) (r : DropReason) (s : State) : (dropEntry c r s).gate = s.gate := by
  unfold dropEntry
  split
  · rw [State.noticeCar_gate, State.updTrip_gate, removeEntry, setEntries_gate]
  · rfl

/-! ## The queue and the recall list through any move -/

/-- Each queued car waits, and each listed car stands once in the list, HELD, unpowered and with no trip. -/
structure State.EntriesSound (s : State) : Prop where
  waits : ∀ c ∈ s.queue.entries, (s.trip c).state = .waiting
  once : (s.plan.recallList.map fun e => e.car).Nodup
  held : ∀ e ∈ s.plan.recallList,
    s.role e.car = .held ∧ (s.car e.car).powered = false ∧ (s.trip e.car).state = .none

namespace State.EntriesSound

variable {s t : State}

theorem of_consistent (h : s.Consistent) : s.EntriesSound where
  waits c queued := (h.queueExact c).1 queued
  once := h.listNodup
  held e he := by
    have role := (h.listHeld e he).1
    have still : ¬ s.mayCharge e.car := fun charge => by
      rcases h.chargedRole e.car charge with r | r | r <;> rw [role] at r <;> cases r
    obtain ⟨off, idle⟩ := not_or.1 still
    refine ⟨role, by simpa using off, ?_⟩
    have waits : (s.trip e.car).state ≠ .waiting := fun w => by
      rcases h.waitingRole e.car w with r | r <;> rw [role] at r <;> cases r
    revert idle waits
    cases (s.trip e.car).state <;> simp [TripState.moving]

theorem not_listed (h : s.EntriesSound) {c : CarIx}
    (other : s.role c ≠ .held ∨ (s.trip c).state ≠ .none) :
    ∀ e ∈ s.plan.recallList, e.car ≠ c := by
  rintro e he rfl
  obtain ⟨role, -, state⟩ := h.held e he
  exact other.elim (fun k => k role) fun k => k state

/-- An act that lengthens neither queue nor list, and leaves what their cars' records say. -/
theorem of_sublists (h : s.EntriesSound) (queue : t.queue.entries.Sublist s.queue.entries)
    (list : t.plan.recallList.Sublist s.plan.recallList)
    (queued : ∀ c ∈ t.queue.entries, (t.trip c).state = (s.trip c).state)
    (listed : ∀ e ∈ t.plan.recallList, t.role e.car = s.role e.car ∧
      (t.car e.car).powered = (s.car e.car).powered ∧
      (t.trip e.car).state = (s.trip e.car).state) : t.EntriesSound where
  waits c hc := (queued c hc).trans (h.waits c (queue.subset hc))
  once := (list.map _).nodup h.once
  held e he := by
    obtain ⟨role, power, state⟩ := listed e he
    rw [role, power, state]
    exact h.held e (list.subset he)

/-- The same, where one car's record alone changes, and that car is in neither. -/
theorem of_one (h : s.EntriesSound) {d : CarIx} (others : ∀ c, c ≠ d → t.car c = s.car c)
    (queue : t.queue.entries.Sublist s.queue.entries)
    (list : t.plan.recallList.Sublist s.plan.recallList)
    (out : d ∉ t.queue.entries) (unlisted : ∀ e ∈ t.plan.recallList, e.car ≠ d) :
    t.EntriesSound := by
  refine h.of_sublists queue list (fun c hc => ?_) fun e he => ?_
  · rw [State.trip, State.trip, others c fun same => out (same ▸ hc)]
  · have same := others e.car (unlisted e he)
    exact ⟨by rw [State.role, State.role, same], by rw [same], by rw [State.trip, State.trip, same]⟩

/-- An act on nothing that the queue, the list or their cars' records hold. -/
theorem of_eq (h : s.EntriesSound) (car : ∀ c, t.car c = s.car c)
    (queue : t.queue.entries = s.queue.entries)
    (list : t.plan.recallList = s.plan.recallList) : t.EntriesSound :=
  h.of_sublists (by rw [queue]) (by rw [list])
    (fun c _ => by rw [State.trip, State.trip, car])
    fun e _ => by simp [State.role, State.trip, car]

theorem call (h : s.EntriesSound) {e : RecallEntry} {rest : List RecallEntry}
    (list : s.plan.recallList = e :: rest) :
    (callCar e.car { s with plan := { s.plan with recallList := rest } }).EntriesSound := by
  have idle := (h.held e (by rw [list]; exact List.mem_cons_self ..)).2.2
  have alone : ∀ x ∈ rest, x.car ≠ e.car := by
    have once := h.once
    rw [list, List.map_cons, List.nodup_cons] at once
    exact fun x hx same => once.1 (same ▸ List.mem_map_of_mem hx)
  refine h.of_one (d := e.car) (fun c ne => ?_) ?_ ((callCar_sublist _ _).trans ?_) ?_
    fun x hx => alone x ((callCar_sublist _ _).subset hx)
  · rw [callCar_car, if_neg ne]; rfl
  · rw [callCar_queue]
  · rw [list]; exact List.sublist_cons_self e rest
  · rw [callCar_queue]
    intro queued
    have waits := h.waits e.car queued
    rw [idle] at waits
    cases waits

theorem dropEntry (h : s.EntriesSound) (d : CarIx) (r : DropReason) :
    (dropEntry d r s).EntriesSound := by
  by_cases waits : (s.trip d).state = .waiting
  · refine h.of_one (d := d) (fun c ne => ?_) (dropEntry_sublist s d r) (by simp) ?_ ?_
    · rw [dropEntry_car, if_neg fun k => ne k.1]
    · rw [dropEntry_entries, if_pos waits]; simp
    · rw [dropEntry_plan]; exact h.not_listed (.inr (by rw [waits]; decide))
  · rw [Machine.dropEntry, if_neg waits]; exact h

theorem deselect (h : s.EntriesSound) (d : CarIx) : (deselect d s).EntriesSound := by
  have out : d ∉ (Machine.deselect d s).queue.entries := by
    rw [deselect_queue, dropEntry_entries]
    split
    · simp
    · rename_i state; exact fun queued => state (h.waits d queued)
  refine h.of_one (d := d) (fun c ne => ?_) ?_ ?_ out ?_
  · rw [deselect_car, if_neg ne]
  · rw [deselect_queue]; exact dropEntry_sublist s d .role
  · rw [deselect_plan]; exact List.filter_sublist
  · rw [deselect_plan]; exact not_listed_filter d _

theorem orderToLand (h : s.EntriesSound) (d : CarIx) (k : VictimKind) (n : Nat) :
    (orderToLand d k n s).EntriesSound := by
  have state (c : CarIx) : ((Machine.orderToLand d k n s).trip c).state = (s.trip c).state := by
    rw [State.trip, orderToLand_car]
    split
    · rename_i same; rw [same]
    · rfl
  have post (c : CarIx) : ((Machine.orderToLand d k n s).car c).post = (s.car c).post := by
    rw [orderToLand_car]
    split
    · rename_i same; rw [same]; rfl
    · rfl
  exact h.of_sublists (by rw [orderToLand_queue]) (by rw [orderToLand_plan]) (fun c _ => state c)
    fun e _ => ⟨congrArg Prod.fst (post e.car), congrArg (fun p => p.2.2) (post e.car), state e.car⟩

theorem selectCar (h : s.EntriesSound) {d : CarIx} (parked : s.role d = .parked) :
    (selectCar d s).EntriesSound := by
  refine h.of_sublists (by rw [selectCar_queue]) (by rw [selectCar_plan]) (fun c _ => ?_) fun e he => ?_
  · rw [State.trip, selectCar_car]
    split
    · rename_i same; rw [same]; rfl
    · rfl
  · rw [selectCar_plan] at he
    have ne := h.not_listed (.inl (by rw [parked]; decide)) e he
    simp [State.role, State.trip, selectCar_car, ne]

theorem carGrant (h : s.EntriesSound) {d : CarIx} (queued : d ∈ s.queue.entries) :
    (carGrant d s).EntriesSound := by
  refine h.of_one (d := d) (fun c ne => ?_) ?_ (by rw [carGrant_plan]) ?_ ?_
  · rw [carGrant_car, if_neg ne]
  · rw [carGrant_entries]; exact List.filter_sublist
  · rw [carGrant_entries]; simp
  · rw [carGrant_plan]; exact h.not_listed (.inr (by rw [h.waits d queued]; decide))

end State.EntriesSound

theorem candidates_subset {s : State} {c : CarIx} (h : c ∈ candidates s) : c ∈ s.queue.entries := by
  unfold candidates at h
  split at h
  · exact h
  · exact List.mem_of_mem_take h

theorem canSelect_parked {s : State} {c : CarIx} (h : canSelect s c = true) : s.role c = .parked := by
  simp only [canSelect, Bool.and_eq_true, beq_iff_eq] at h
  exact h.1.1.1

theorem Move.entriesSound {s t : State} (m : Move s t) (h : s.EntriesSound) : t.EntriesSound := by
  cases m with
  | call e rest list => exact h.call list
  | endRecall => exact h.of_eq (endRecall_car s) (by rw [endRecall_queue]) (by rw [endRecall_plan])
  | overcommitBegins => exact h.of_eq (fun _ => rfl) rfl rfl
  | overcommitEnds => exact h.of_eq (fun _ => rfl) rfl rfl
  | drop d r => exact h.dropEntry d r
  | deselect d => exact h.deselect d
  | land d => exact h.orderToLand d _ _
  | landReverse d => exact h.orderToLand d _ _
  | select d allowed can => exact h.selectCar (canSelect_parked can)
  | carGrant d opened allowed candidate => exact h.carGrant (candidates_subset candidate)
  | panelGrant => exact h.of_eq (fun _ => rfl) rfl rfl
  | draw => exact h.of_eq (fun _ => rfl) rfl rfl

theorem Moves.entriesSound {s t : State} (m : Moves s t) (h : s.EntriesSound) : t.EntriesSound :=
  Moves.keeps (P := State.EntriesSound) (fun _ _ hs k => k.entriesSound hs) m h

/-- No move lengthens the queue, and what is left of it keeps its order. -/
theorem Move.entries_sublist {s t : State} (m : Move s t) :
    t.queue.entries.Sublist s.queue.entries := by
  cases m with
  | call => rw [callCar_queue]
  | endRecall => rw [endRecall_queue]
  | drop d r => exact dropEntry_sublist s d r
  | deselect d => rw [deselect_queue]; exact dropEntry_sublist s d .role
  | land => rw [orderToLand_queue]
  | landReverse => rw [orderToLand_queue]
  | select => rw [selectCar_queue]
  | carGrant => rw [carGrant_entries]; exact List.filter_sublist
  | _ => exact .refl _

theorem Moves.entries_sublist {s t : State} (m : Moves s t) :
    t.queue.entries.Sublist s.queue.entries :=
  Moves.keeps (P := fun x => x.queue.entries.Sublist s.queue.entries)
    (fun _ _ h k => k.entries_sublist.trans h) m (.refl _)

/-! ## The trip of a car through the moves -/

theorem selectCar_trip (c d : CarIx) (s : State) : (selectCar c s).trip d = s.trip d := by
  rw [State.trip, selectCar_car]
  split
  · rename_i same; rw [same]; rfl
  · rfl

theorem deselect_trip (c d : CarIx) (s : State) :
    (deselect c s).trip d = (dropEntry c .role s).trip d := by
  rw [State.trip, deselect_car]
  split
  · rename_i same; rw [same]; rfl
  · rename_i ne; rw [State.trip, dropEntry_car, if_neg fun h => ne h.1]

theorem carGrant_trip_ne {c d : CarIx} (s : State) (ne : d ≠ c) :
    (carGrant c s).trip d = s.trip d := by
  rw [State.trip, carGrant_car, if_neg ne]; rfl

/-- What of a trip the queue's rules move. -/
def Trip.fate (t : Trip) : TripState × Verdict := (t.state, t.verdict)

theorem orderToLand_fate (c d : CarIx) (k : VictimKind) (n : Nat) (s : State) :
    ((orderToLand c k n s).trip d).fate = (s.trip d).fate := by
  rw [State.trip, orderToLand_car]
  split
  · rename_i same; rw [same]; rfl
  · rfl

theorem callCar_fate (c d : CarIx) (s : State) :
    ((callCar c s).trip d).fate = (s.trip d).fate := by
  rw [State.trip, callCar_car]
  split
  · rename_i same
    rw [same]
    split
    · rw [park_car, if_pos rfl]; rfl
    · rfl
  · rfl

/-- The entry of car c was dropped with this reason, and the car is not queued. -/
structure State.EntryDropped (s : State) (c : CarIx) (r : DropReason) : Prop where
  fate : (s.trip c).fate = (.none, .dropped r)
  out : c ∉ s.queue.entries

/-- A dropped entry stays dropped through every move of the event. -/
theorem Move.entryDropped {s t : State} (m : Move s t) {c : CarIx} {r : DropReason}
    (h : s.EntryDropped c r) : t.EntryDropped c r := by
  have idle : (s.trip c).state = .none := congrArg Prod.fst h.fate
  have undropped (d : CarIx) (q : DropReason) : (dropEntry d q s).trip c = s.trip c := by
    rw [dropEntry_trip, if_neg]
    rintro ⟨rfl, waits⟩
    rw [idle] at waits; cases waits
  refine ⟨?_, fun queued => h.out (m.entries_sublist.subset queued)⟩
  rw [← h.fate]
  cases m with
  | call => exact callCar_fate ..
  | endRecall => rw [State.trip, endRecall_car]; rfl
  | drop d q => rw [undropped]
  | deselect d => rw [deselect_trip, undropped]
  | land => exact orderToLand_fate ..
  | landReverse => exact orderToLand_fate ..
  | select => rw [selectCar_trip]
  | carGrant d opened allowed candidate =>
    rw [carGrant_trip_ne]
    rintro rfl
    exact h.out (candidates_subset candidate)
  | _ => rfl

theorem Moves.entryDropped {s t : State} (m : Moves s t) {c : CarIx} {r : DropReason}
    (h : s.EntryDropped c r) : t.EntryDropped c r :=
  Moves.keeps (P := fun x => x.EntryDropped c r) (fun _ _ hs k => k.entryDropped hs) m h

/-! ## The sequencer's part of an event -/

/-- The sequencer's moves. -/
inductive PlanMove (s : State) : State → Prop where
  | call (e : RecallEntry) (rest : List RecallEntry) (list : s.plan.recallList = e :: rest) :
      PlanMove s (callCar e.car { s with plan := { s.plan with recallList := rest } })
  | endRecall (ended : recallOver s = true) : PlanMove s (endRecall s)

/-- What calls and the recall's end leave: the queue, the gate, the account, the controller and each trip's
fate; and each record but those of listed cars, which are called or PARKED. -/
structure PlanKept (s t : State) : Prop where
  queue : t.queue = s.queue
  gate : t.gate = s.gate
  control : t.control = s.control
  evaluates : t.plan.phase.evaluates = s.plan.phase.evaluates
  list : t.plan.recallList.Sublist s.plan.recallList
  fate : ∀ c, (t.trip c).fate = (s.trip c).fate
  ordered : ∀ c, (t.trip c).shedOrdered = (s.trip c).shedOrdered
  record : ∀ c, t.car c = s.car c ∨ (∃ e ∈ s.plan.recallList, e.car = c) ∧
    (t.role c = .recall ∨ t.role c = .parked) ∧
    ((t.car c).powered = (s.car c).powered ∨ (t.car c).powered = false)

theorem PlanKept.refl (s : State) : PlanKept s s :=
  ⟨rfl, rfl, rfl, rfl, .refl _, fun _ => rfl, fun _ => rfl, fun _ => .inl rfl⟩

theorem PlanKept.trans {s t u : State} (h : PlanKept s t) (k : PlanKept t u) : PlanKept s u where
  queue := k.queue.trans h.queue
  gate := k.gate.trans h.gate
  control := k.control.trans h.control
  evaluates := k.evaluates.trans h.evaluates
  list := k.list.trans h.list
  fate c := (k.fate c).trans (h.fate c)
  ordered c := (k.ordered c).trans (h.ordered c)
  record c := by
    rcases k.record c with same | ⟨⟨e, he, own⟩, role, power⟩
    · simp only [State.role, same]
      exact h.record c
    · refine .inr ⟨⟨e, h.list.subset he, own⟩, role, ?_⟩
      rcases power with power | off
      · rcases h.record c with same | ⟨-, -, power' | off⟩
        · exact .inl (by rw [power, same])
        · exact .inl (power.trans power')
        · exact .inr (power.trans off)
      · exact .inr off

theorem callCar_gate (c : CarIx) (s : State) : (callCar c s).gate = s.gate := by
  unfold callCar
  split
  · rfl
  · rw [State.noticeCar_gate]; rfl

theorem endRecall_gate (s : State) : (endRecall s).gate = s.gate := by
  have cars (t : State) : (t.noticeCars .phase).gate = t.gate :=
    List.foldlRecOn (motive := fun u : State => u.gate = t.gate) allCars
      (fun u d => u.noticeCar d .phase) rfl fun u h d _ => (u.noticeCar_gate d .phase).trans h
  unfold endRecall enterPhase
  rw [State.noticePanel_gate, cars]
  rfl

theorem PlanMove.kept {s t : State} (m : PlanMove s t) : PlanKept s t := by
  cases m with
  | call e rest list =>
    refine ⟨by rw [callCar_queue], by rw [callCar_gate], callCar_control .., by rw [callCar_phase],
      (callCar_sublist _ _).trans (by rw [list]; exact List.sublist_cons_self e rest),
      fun c => callCar_fate .., fun c => ?_, fun c => ?_⟩
    · rw [State.trip, callCar_car]
      split
      · rename_i same
        rw [same]
        split
        · rw [park_car, if_pos rfl]; rfl
        · rfl
      · rfl
    · by_cases same : c = e.car
      · refine .inr ⟨⟨e, by rw [list]; exact List.mem_cons_self .., same.symm⟩, ?_⟩
        rw [State.role, callCar_car, if_pos same]
        split
        · rw [park_car, if_pos rfl]
          exact ⟨.inr rfl, .inr rfl⟩
        · exact ⟨.inl rfl, .inl (by rw [same]; rfl)⟩
      · rw [callCar_car, if_neg same]
        exact .inl rfl
  | endRecall ended =>
    refine ⟨endRecall_queue s, endRecall_gate s, endRecall_control s, ?_, by rw [endRecall_plan],
      fun c => ?_, fun c => ?_, fun c => .inl (endRecall_car s c)⟩
    · rw [endRecall_plan, recallOver_phase ended]; rfl
    · rw [State.trip, endRecall_car]; rfl
    · rw [State.trip, endRecall_car]; rfl

theorem callHeads_kept : ∀ (k : Nat) (s : State), PlanKept s (callHeads k s)
  | 0, s => .refl s
  | k + 1, s => by
    unfold callHeads
    split
    · exact .refl s
    · rename_i e rest list
      split
      · exact (PlanMove.call e rest list).kept.trans (callHeads_kept k _)
      · exact .refl s

theorem advancePlan_kept (s0 s : State) : PlanKept s (advancePlan s0 s) := by
  unfold advancePlan
  extract_lets a
  have called : PlanKept s a := by
    unfold a
    split
    · exact callHeads_kept _ s
    · exact .refl s
  split
  · rename_i due
    exact called.trans (PlanMove.endRecall (Bool.and_eq_true_iff.1 due).2).kept
  · exact called

/-- Called cars are unpowered before and after, so calls leave each car's power. -/
theorem PlanKept.powered {s t : State} (h : PlanKept s t) (sound : s.EntriesSound) (c : CarIx) :
    (t.car c).powered = (s.car c).powered := by
  rcases h.record c with same | ⟨⟨e, he, rfl⟩, -, power | off⟩
  · rw [same]
  · exact power
  · rw [off, (sound.held e he).2.1]

theorem PlanKept.sameAccount {s t : State} (h : PlanKept s t) (only : OnlyDecisions s t)
    (sound : s.EntriesSound) : SameAccount s t :=
  .of_only only h.evaluates (h.powered sound) fun c => .inl (congrArg Prod.fst (h.fate c))

theorem advancePlan_sameAccount (s0 : State) {s : State} (sound : s.EntriesSound) :
    SameAccount s (advancePlan s0 s) :=
  (advancePlan_kept s0 s).sameAccount (advancePlan_moves s0 s).only sound

theorem evaluate_sameAccount (s : State) : SameAccount s (evaluate s) := by
  unfold evaluate
  split <;> exact .parts rfl rfl rfl rfl rfl

theorem evaluate_eq (s : State) : (evaluate s).cars = s.cars ∧ (evaluate s).queue = s.queue ∧
    (evaluate s).plan = s.plan ∧ (evaluate s).gate = s.gate := by
  unfold evaluate
  split <;> exact ⟨rfl, rfl, rfl, rfl⟩

theorem evaluate_car (s : State) (c : CarIx) : (evaluate s).car c = s.car c := by
  simp only [State.car, (evaluate_eq s).1]

/-! ## An entry that is not dropped by the re-check -/

/-- The entry of car c, whose verdict was `v`: it waits on, or its trip was started where the gate was open
(`gate`), or it went with its car's deselection, a condition holding (`cond`). -/
structure EntryStands (v : Verdict) (gate cond : Prop) (c : CarIx) (s : State) : Prop where
  fate : (s.trip c).fate = (.waiting, v) ∧ c ∈ s.queue.entries ∨
    (s.trip c).state = .starting ∧ gate ∨ s.EntryDropped c .role ∧ cond
  opened : s.gate.state = .opened → gate

namespace EntryStands

variable {v : Verdict} {gate cond : Prop} {c : CarIx} {s t : State}

theorem of_same (h : EntryStands v gate cond c s) (fate : (t.trip c).fate = (s.trip c).fate)
    (queue : c ∈ t.queue.entries ↔ c ∈ s.queue.entries)
    (opened : t.gate.state = .opened → s.gate.state = .opened) : EntryStands v gate cond c t := by
  refine ⟨?_, fun o => h.opened (opened o)⟩
  have state : (t.trip c).state = (s.trip c).state := congrArg Prod.fst fate
  rcases h.fate with ⟨waits, queued⟩ | ⟨starts, g⟩ | ⟨gone, k⟩
  · exact .inl ⟨fate.trans waits, queue.2 queued⟩
  · exact .inr (.inl ⟨state.trans starts, g⟩)
  · exact .inr (.inr ⟨⟨fate.trans gone.fate, fun queued => gone.out (queue.1 queued)⟩, k⟩)

theorem plan (h : EntryStands v gate cond c s) (k : PlanKept s t) : EntryStands v gate cond c t :=
  h.of_same (k.fate c) (by rw [k.queue]) (by rw [k.gate]; exact id)

theorem evaluate (h : EntryStands v gate cond c s) : EntryStands v gate cond c (evaluate s) := by
  obtain ⟨-, queue, -, gate⟩ := evaluate_eq s
  refine h.of_same ?_ (by rw [queue]) (by rw [gate]; exact id)
  rw [State.trip, evaluate_car]; rfl

/-- A choice of the pass leaves an entry or deselects its car, which it does only under a condition. -/
theorem choice (h : EntryStands v gate cond c s) (m : Choice s t) (k : cond) :
    EntryStands v gate cond c t := by
  cases m with
  | land d =>
    exact h.of_same (orderToLand_fate ..) (by rw [orderToLand_queue]) (by simp [orderToLand])
  | landReverse d =>
    exact h.of_same (orderToLand_fate ..) (by rw [orderToLand_queue]) (by simp [orderToLand])
  | park d =>
    have gateKept : (deselect d s).gate = s.gate := by
      simp only [deselect, State.noticeCar_gate, State.updCar_gate, park, leavePlan, dropEntry_gate]
    by_cases taken : c = d ∧ (s.trip d).state = .waiting
    · refine ⟨.inr (.inr ⟨⟨?_, ?_⟩, k⟩), by rw [gateKept]; exact h.opened⟩
      · rw [deselect_trip, dropEntry_trip, if_pos taken]; rfl
      · rw [deselect_queue, dropEntry_entries, if_pos taken.2, taken.1]; simp
    · refine h.of_same ?_ ?_ (by rw [gateKept]; exact id)
      · rw [deselect_trip, dropEntry_trip, if_neg taken]
      · rw [deselect_queue, dropEntry_entries]
        split
        · rename_i waits
          have ne : c ≠ d := fun same => taken ⟨same, waits⟩
          simp [ne]
        · rfl

theorem choices (h : EntryStands v gate cond c s) (m : Choices s t) (k : cond) :
    EntryStands v gate cond c t := by
  induction m with
  | refl => exact h
  | tail _ last ih => exact ih.choice last k

theorem grantMove (h : EntryStands v gate cond c s) (m : GrantMove s t) :
    EntryStands v gate cond c t := by
  cases m with
  | select d =>
    exact h.of_same (by rw [selectCar_trip]) (by rw [selectCar_queue]) (by simp [selectCar])
  | carGrant d opened =>
    have started : (carGrant d s).gate.state = .carStart := by
      unfold carGrant; simp
    have shut : (carGrant d s).gate.state = .opened → s.gate.state = .opened := fun _ => opened
    by_cases same : c = d
    · refine ⟨.inr (.inl ⟨?_, h.opened opened⟩), fun o => h.opened (shut o)⟩
      rw [State.trip, carGrant_car, if_pos same]; rfl
    · refine h.of_same (by rw [carGrant_trip_ne s same]) ?_ shut
      rw [carGrant_entries]; simp [same]
  | panelGrant e opened => exact h.of_same rfl Iff.rfl fun _ => opened
  | draw n => exact h.of_same rfl Iff.rfl id

theorem grantMoves (h : EntryStands v gate cond c s) (m : GrantMoves s t) :
    EntryStands v gate cond c t := by
  induction m with
  | refl => exact h
  | tail _ last ih => exact ih.grantMove last

end EntryStands

/-! ## The re-check (R92) -/

/-- The re-check's walk over entries `l`, by the account of `s`. -/
def recheckWalk (s : State) (l : List CarIx) (t : State) : State :=
  l.foldl (fun t c =>
    match recheckFails s c with
    | some r => dropEntry c r t
    | none => t) t

theorem recheck_eq_walk (s : State) : recheck s = recheckWalk s s.queue.entries s := rfl

theorem recheckWalk_moves (s : State) : ∀ (l : List CarIx) (t : State), Moves t (recheckWalk s l t)
  | [], _ => .refl
  | c :: l, t => by
    unfold recheckWalk
    rw [List.foldl_cons]
    refine Relation.ReflTransGen.trans ?_ (recheckWalk_moves s l _)
    split
    · rename_i r fails; exact dropEntry_moves c r (recheckFails_reason fails) t
    · exact .refl

/-- A waiting entry that fails is dropped with the reason of its first failing test, and told. -/
theorem recheckWalk_drops (s : State) {c : CarIx} {r : DropReason} (fails : recheckFails s c = some r) :
    ∀ (l : List CarIx) (t : State), c ∈ l → (t.trip c).state = .waiting →
      (recheckWalk s l t).EntryDropped c r ∧
      (t.configured c = true →
        (recheckWalk s l t).hasNotice (.car c) CarNotice.dropped.number = true)
  | [], _, mem, _ => by cases mem
  | d :: l, t, mem, waits => by
    unfold recheckWalk
    rw [List.foldl_cons]
    by_cases same : c = d
    · subst same
      rw [fails]
      have rest := recheckWalk_moves s l (dropEntry c r t)
      have dropped : (dropEntry c r t).EntryDropped c r := by
        refine ⟨?_, ?_⟩
        · rw [dropEntry_trip, if_pos ⟨rfl, waits⟩]; rfl
        · rw [dropEntry_entries, if_pos waits]; simp
      refine ⟨rest.entryDropped dropped, fun configured => ?_⟩
      have told : (dropEntry c r t).hasNotice (.car c) CarNotice.dropped.number = true := by
        have listed : ((removeEntry c t).updTrip c fun x =>
            { x with state := .none, verdict := .dropped r }).configured c = true := by
          have store : (removeEntry c t).store = t.store := (removeEntry_only (.refl t) c).store
          rw [State.configured, State.updTrip_store, store]
          exact configured
        rw [dropEntry, if_pos waits]
        exact State.hasNotice_noticeCar listed .dropped
      exact rest.only.hasNotice told
    · have tail : c ∈ l := (List.mem_cons.1 mem).resolve_left same
      split
      · rename_i q _
        have trip : (dropEntry d q t).trip c = t.trip c := by
          rw [dropEntry_trip, if_neg fun k => same k.1]
        have store : (dropEntry d q t).store = t.store := (dropEntry_only (.refl t) d q).store
        have walked := recheckWalk_drops s fails l (dropEntry d q t) tail (by rw [trip]; exact waits)
        rw [State.configured, store] at walked
        exact walked
      · exact recheckWalk_drops s fails l t tail waits

/-- An entry that passes is left as it stands. -/
theorem recheckWalk_stands (s : State) {v : Verdict} {gate cond : Prop} {c : CarIx}
    (passes : recheckFails s c = none) (l : List CarIx) {t : State}
    (h : EntryStands v gate cond c t) : EntryStands v gate cond c (recheckWalk s l t) :=
  List.foldlRecOn (motive := EntryStands v gate cond c) l _ h fun u hu d _ => by
    split
    · rename_i q fails
      have ne : c ≠ d := fun same => by rw [← same, passes] at fails; cases fails
      refine hu.of_same ?_ ?_ (by rw [dropEntry_gate]; exact id)
      · rw [dropEntry_trip, if_neg fun k => ne k.1]
      · rw [dropEntry_entries]
        split
        · simp [ne]
        · rfl
    · exact hu

end Sys2Proof.Machine
end

section
/-!
PROOFS. What an event's closing makes of the entries that waited when its account changed: with a re-check due
those that fail are dropped with the reason of their first failing test, and every other stands (R92).
-/

namespace Sys2Proof.Machine

variable {s t : State}

/-- The re-check of an entry reads the account, the trip's S and what powering the car would add. -/
theorem recheckFails_congr (same : SameAccount s t) {c : CarIx}
    (figures : (t.trip c).figures = (s.trip c).figures) (inputs : (t.car c).inputs = (s.car c).inputs)
    (powered : (t.car c).powered = (s.car c).powered) : recheckFails t c = recheckFails s c := by
  have start : (t.trip c).s = (s.trip c).s := congrArg (fun f => f.demand.s) figures
  have a : (t.car c).profile.a = (s.car c).profile.a := congrArg (fun i => i.profile.a) inputs
  have extra : t.extra c = s.extra c := by simp only [State.extra, start, a, powered]
  have step : t.stepOk c = s.stepOk c := by
    rw [Bool.eq_iff_iff, State.stepOk_iff, State.stepOk_iff, start, same.stepLimit]
  have rest : t.fitsAtRest c = s.fitsAtRest c := by
    rw [Bool.eq_iff_iff, State.fitsAtRest_iff, State.fitsAtRest_iff, extra, same.offer,
      same.standingAll, same.rs, same.singleCar, same.standingOn, same.feeder, same.rating]
  simp only [recheckFails, step, rest]

theorem recheckDue_congr (same : SameAccount s t) (s0 : State) : recheckDue s0 t = recheckDue s0 s := by
  simp only [recheckDue, same.offer, same.rs, same.stepLimit]

/-- The state on which an event's re-check is made: calls and the end of recall, then the evaluation. -/
def evaluated (s0 s : State) : State := evaluate (advancePlan s0 s)

theorem evaluated_moves (s0 s : State) : Moves s (evaluated s0 s) :=
  (advancePlan_moves s0 s).trans (evaluate_moves _)

theorem evaluated_sameAccount (s0 : State) (sound : s.EntriesSound) :
    SameAccount s (evaluated s0 s) :=
  (advancePlan_sameAccount s0 sound).trans (evaluate_sameAccount _)

theorem evaluated_powered (s0 : State) (sound : s.EntriesSound) (c : CarIx) :
    ((evaluated s0 s).car c).powered = (s.car c).powered := by
  rw [evaluated, evaluate_car]
  exact (advancePlan_kept s0 s).powered sound c

theorem recheckFails_evaluated (s0 : State) (sound : s.EntriesSound) (c : CarIx) :
    recheckFails (evaluated s0 s) c = recheckFails s c :=
  recheckFails_congr (evaluated_sameAccount s0 sound) ((evaluated_moves s0 s).only.figures c)
    ((evaluated_moves s0 s).only.cars c) (evaluated_powered s0 sound c)

theorem closeEvent_eq (k : Cause) (s0 s : State) : closeEvent k s0 s =
    selectAndGrant k s0 (shedIfDue k s0 (recheckIfDue s0 (evaluated s0 s))) := rfl

/-- An entry that fails a re-check that is due is dropped, and told, whatever the event goes on to do. -/
theorem closeEvent_drops {k : Cause} {s0 : State} {c : CarIx} {r : DropReason}
    (sound : s.EntriesSound) (due : recheckDue s0 s = true) (fails : recheckFails s c = some r)
    (waits : (s.trip c).state = .waiting) (queued : c ∈ s.queue.entries) :
    (closeEvent k s0 s).EntryDropped c r ∧ (s.configured c = true →
      (closeEvent k s0 s).hasNotice (.car c) CarNotice.dropped.number = true) := by
  have rest : Moves (recheck (evaluated s0 s)) (closeEvent k s0 s) := by
    rw [closeEvent_eq, recheckIfDue, if_pos (by rwa [recheckDue_congr (evaluated_sameAccount s0 sound)])]
    exact (shedIfDue_moves k s0 _).trans (selectAndGrant_moves k s0 _)
  have plan := advancePlan_kept s0 s
  have waits' : ((evaluated s0 s).trip c).state = .waiting := by
    rw [State.trip, evaluated, evaluate_car]
    exact (congrArg Prod.fst (plan.fate c)).trans waits
  have queued' : c ∈ (evaluated s0 s).queue.entries := by
    rw [evaluated, (evaluate_eq _).2.1, plan.queue]; exact queued
  have store : (evaluated s0 s).store = s.store := (evaluated_moves s0 s).only.store
  obtain ⟨dropped, told⟩ := recheckWalk_drops (evaluated s0 s)
    ((recheckFails_evaluated s0 sound c).trans fails) _ (evaluated s0 s) queued' waits'
  refine ⟨rest.entryDropped dropped, fun configured => ?_⟩
  exact rest.only.hasNotice (told (by rw [State.configured, store]; exact configured))

/-- An entry that stands, and passes the re-check if one is due, stands when the event is closed. -/
theorem closeEvent_stands {k : Cause} {s0 : State} {v : Verdict} {gate cond : Prop} {c : CarIx}
    (ready : s.Ready) (sound : s.EntriesSound) (h : EntryStands v gate cond c s)
    (passes : recheckDue s0 s = true → recheckFails s c = none)
    (held : s.anyCondition = true → cond) : EntryStands v gate cond c (closeEvent k s0 s) := by
  have same := evaluated_sameAccount s0 sound
  have settled : (evaluated s0 s).Settled := (ready.advancePlan s0).evaluate
  have checked : EntryStands v gate cond c (recheckIfDue s0 (evaluated s0 s)) := by
    have stands : EntryStands v gate cond c (evaluated s0 s) := (h.plan (advancePlan_kept s0 s)).evaluate
    unfold recheckIfDue
    split
    · rename_i due
      rw [recheckDue_congr same] at due
      exact recheckWalk_stands _ ((recheckFails_evaluated s0 sound c).trans (passes due)) _ stands
    · exact stands
  have recheckedSame : SameAccount s (recheckIfDue s0 (evaluated s0 s)) := by
    unfold recheckIfDue
    split
    · exact same.trans (recheck_sameAccount _)
    · exact same
  have shed : EntryStands v gate cond c (shedIfDue k s0 (recheckIfDue s0 (evaluated s0 s))) := by
    unfold shedIfDue
    split
    · rename_i due
      have cond := held (by
        rw [← recheckedSame.anyCondition]
        exact (settled.recheckIfDue s0).overcommit.1 due.1)
      exact ((checked.choices (shedPass_choices _) cond).plan (advancePlan_kept s0 _)).evaluate
    · exact checked
  rw [closeEvent_eq]
  exact shed.grantMoves (selectAndGrant_grantMoves k s0 _)

/-! ## The statements' terms -/

theorem EntryStands.of_waiting (h : s.Consistent) {c : CarIx} (waits : (s.trip c).state = .waiting)
    (cond : Prop) : EntryStands (s.trip c).verdict (s.gate.state = .opened) cond c s :=
  ⟨.inl ⟨by rw [Trip.fate, waits], (h.queueExact c).2 waits⟩, id⟩

theorem EntryStands.keepsWaiting {a : State} {c : CarIx}
    (h : EntryStands (s.trip c).verdict (s.gate.state = .opened) (a.anyCondition = true) c t) :
    s.KeepsWaiting a t c := by
  rcases h.fate with ⟨fate, queued⟩ | starts | ⟨dropped, cond⟩
  · exact .inl ⟨congrArg Prod.fst fate, congrArg Prod.snd fate, queued⟩
  · exact .inr (.inl starts)
  · exact .inr (.inr ⟨congrArg Prod.fst dropped.fate, congrArg Prod.snd dropped.fate, cond⟩)

/-- What the two tests of the re-check are, in the terms of `Rechecked` (R32, R33). -/
theorem recheckFails_cases (s : State) (c : CarIx) :
    let x := (s.trip c).s + (if (s.car c).powered then 0 else (s.car c).profile.a)
    let stepFails := s.account.stepLimit ≠ 0 ∧ s.account.stepLimit < (s.trip c).s
    let restFails := s.account.offer < x + s.standingAll + s.rs ∨
      s.singleCar = false ∧ s.rating (s.feeder c) < x + s.standingOn (s.feeder c)
    (stepFails → recheckFails s c = some .step) ∧
    (¬ stepFails → restFails → recheckFails s c = some .noCapacity) ∧
    (¬ stepFails → ¬ restFails → recheckFails s c = none) := by
  intro x stepFails restFails
  have step : s.stepOk c = true ↔ ¬ stepFails := by
    rw [s.stepOk_iff]; simp only [stepFails, not_and_or, not_not, Nat.not_lt]
  have rest : s.fitsAtRest c = true ↔ ¬ restFails := by
    rw [s.fitsAtRest_iff]
    simp only [restFails, not_or, not_and_or, Nat.not_lt, Bool.not_eq_false]
    rfl
  refine ⟨fun fails => ?_, fun passes fails => ?_, fun passes rests => ?_⟩
  · have no : s.stepOk c = false := Bool.eq_false_iff.2 fun k => step.1 k fails
    simp [recheckFails, no]
  · have no : s.fitsAtRest c = false := Bool.eq_false_iff.2 fun k => rest.1 k fails
    simp [recheckFails, step.2 passes, no]
  · simp [recheckFails, step.2 passes, rest.2 rests]

end Sys2Proof.Machine
end

section
/-!
PROOFS. A selection run (R112): each selection and each grant leaves the other candidates no better placed, so
one pass over the candidates takes all that fit, in their order; and what an event that makes a selection run
leaves.
-/

namespace Sys2Proof.Machine

variable {s t : State}

/-! ## A candidate's chances -/

/-- From `s` to `t` no candidate's chances have grown: none is new, no room, and the account charges no less. -/
structure Filled (s t : State) : Prop where
  only : OnlyDecisions s t
  can : ∀ d, canSelect t d = true → canSelect s d = true
  count : s.serviceCount ≤ t.serviceCount
  fits : ∀ d, t.selectionFits d = true → s.selectionFits d = true

theorem Filled.refl (s : State) : Filled s s := ⟨.refl s, fun _ => id, Nat.le_refl _, fun _ => id⟩

theorem Filled.trans {u : State} (h : Filled s t) (k : Filled t u) : Filled s u :=
  ⟨h.only.trans k.only, fun d hd => h.can d (k.can d hd), h.count.trans k.count,
    fun d hd => h.fits d (k.fits d hd)⟩

theorem State.selectionFits_iff (s : State) (c : CarIx) : s.selectionFits c = true ↔ s.RoomFor c := by
  simp only [State.selectionFits, State.RoomFor, Bool.and_eq_true, Bool.or_eq_true, decide_eq_true_eq]

/-- Where every record is charged as much or more, no selection fits that did not. -/
theorem selectionFits_of_charge_le (only : OnlyDecisions s t)
    (charge : ∀ d, (s.car d).charge ≤ (t.car d).charge) (d : CarIx)
    (fits : t.selectionFits d = true) : s.selectionFits d = true := by
  rw [State.selectionFits_iff] at fits ⊢
  obtain ⟨room, feeder⟩ := fits
  have a : (t.car d).profile.a = (s.car d).profile.a := congrArg (fun i => i.profile.a) (only.cars d)
  have offer : t.account.offer = s.account.offer := congrArg (fun l => l.1) only.limits
  have reserves : t.rs = s.rs := by
    rw [State.rs_eq, State.rs_eq, show t.account.reserves = s.account.reserves from
      congrArg (fun l => l.2.2.2) only.limits]
  have single : t.singleCar = s.singleCar := by simp only [State.singleCar, only.store]
  have feeders : t.feeder = s.feeder := by funext x; simp only [State.feeder, only.store]
  have ratings : t.rating = s.rating := by funext f; simp only [State.rating, only.store]
  have load : s.lc ≤ t.lc := sumCars_mono charge
  refine ⟨by omega, ?_⟩
  cases table : s.singleCar with
  | true => exact .inl rfl
  | false =>
    refine .inr ?_
    have room := feeder.resolve_left (by simp [single, table])
    rw [State.feederLoad_of_table (single.trans table), feeders, ratings] at room
    rw [State.feederLoad_of_table table]
    have part := sumCars_mono (f := fun x => if s.feeder x = s.feeder d then (s.car x).charge else 0)
      (g := fun x => if s.feeder x = s.feeder d then (t.car x).charge else 0)
      fun x => by
        split
        · exact charge x
        · exact Nat.le_refl 0
    omega

theorem serviceCount_mono (h : ∀ d, s.inService d = true → t.inService d = true) :
    s.serviceCount ≤ t.serviceCount :=
  (List.monotone_filter_right allCars h).length_le

theorem canSelect_iff (s : State) (c : CarIx) : canSelect s c = true ↔
    s.role c = .parked ∧ (s.car c).included = true ∧ (s.car c).available = true ∧
    (s.car c).recallFailed = false := by
  simp [canSelect, and_assoc]

/-- A candidate is taken, and is one no more. -/
theorem selectCar_not_can (c : CarIx) (s : State) : canSelect (selectCar c s) c = false := by
  simp [canSelect, State.role, selectCar_car]

theorem selectCar_filled {c : CarIx} (can : canSelect s c = true) : Filled s (selectCar c s) := by
  have only := selectCar_only (.refl s) c
  refine ⟨only, fun d => ?_, serviceCount_mono fun d => ?_,
    selectionFits_of_charge_le only fun d => ?_⟩
  · by_cases same : d = c
    · rw [same]; exact fun _ => can
    · simp [canSelect, State.role, selectCar_car, same]
  · by_cases same : d = c
    · simp [State.inService, State.role, selectCar_car, same]
    · simp [State.inService, State.role, selectCar_car, same]
  · rw [selectCar_car]
    split
    · rename_i same
      rw [same, CarRecord.charge, CarRecord.charge]
      refine Nat.add_le_add_right ?_ _
      unfold CarRecord.standing
      split <;> simp
    · exact Nat.le_refl _

theorem carGrant_filled {c : CarIx} (waits : (s.trip c).state = .waiting) :
    Filled s (carGrant c s) := by
  have only := carGrant_only (.refl s) c
  have record (d : CarIx) : ((carGrant c s).car d).role = (s.car d).role ∧
      ((carGrant c s).car d).recallFailed = (s.car d).recallFailed ∧
      ((carGrant c s).car d).preLoss = (s.car d).preLoss := by
    rw [carGrant_car]
    split
    · rename_i same; rw [same]; exact ⟨rfl, rfl, rfl⟩
    · exact ⟨rfl, rfl, rfl⟩
  refine ⟨only, fun d => ?_, serviceCount_mono fun d => ?_,
    selectionFits_of_charge_le only fun d => ?_⟩
  · have included : ((carGrant c s).car d).included = (s.car d).included :=
      congrArg CarInputs.included (only.cars d)
    have available : ((carGrant c s).car d).available = (s.car d).available :=
      congrArg CarInputs.available (only.cars d)
    simp only [canSelect, State.role, record, included, available]
    exact id
  · simp only [State.inService, State.role, record]
    exact id
  · rw [carGrant_car]
    split
    · rename_i same
      have nothing : (s.car c).trip.charge = 0 := (Trip.charge_credit_of_idle (.inr waits)).1
      rw [same, CarRecord.charge, CarRecord.charge, nothing]
      refine Nat.add_le_add ?_ (Nat.zero_le _)
      unfold CarRecord.standing CarRecord.granted
      split <;> simp
    · exact Nat.le_refl _

theorem GrantMoves.moves (m : GrantMoves s t) : Moves s t := by
  induction m with
  | refl => exact .refl
  | tail _ last ih => exact ih.tail last.move

theorem GrantMove.filled (m : GrantMove s t) (sound : s.EntriesSound) : Filled s t := by
  cases m with
  | select c allowed can => exact selectCar_filled can
  | carGrant c opened allowed candidate =>
    exact carGrant_filled (sound.waits c (candidates_subset candidate))
  | panelGrant e => exact ⟨panelGrant_only (.refl s) e, fun _ => id, Nat.le_refl _, fun _ => id⟩
  | draw n => exact ⟨(Move.draw n).only, fun _ => id, Nat.le_refl _, fun _ => id⟩

theorem GrantMoves.filled (m : GrantMoves s t) (sound : s.EntriesSound) : Filled s t := by
  induction m with
  | refl => exact .refl s
  | tail earlier last ih => exact ih.trans (last.filled ((GrantMoves.moves earlier).entriesSound sound))

/-! ## One pass over the candidates -/

/-- A selection run stops short of car d: Nsel is filled, or the car does not fit. -/
def State.Passed (s : State) (d : CarIx) : Prop :=
  nsel s.store.active ≤ s.serviceCount ∨ s.selectionFits d = false

theorem Filled.passed (h : Filled s t) {d : CarIx} (passed : s.Passed d) : t.Passed d := by
  rcases passed with full | fits
  · exact .inl (by rw [h.only.store]; exact full.trans h.count)
  · exact .inr (Bool.eq_false_iff.2 fun k => by rw [h.fits d k] at fits; cases fits)

theorem trySelect_filled (c : CarIx) (s : State) : Filled s (trySelect s c) := by
  unfold trySelect
  split
  · rename_i taken; exact selectCar_filled taken.1
  · exact .refl s

theorem foldl_trySelect_filled (l : List CarIx) (s : State) : Filled s (l.foldl trySelect s) :=
  List.foldlRecOn (motive := Filled s) l _ (.refl s) fun _ h c _ => h.trans (trySelect_filled c _)

/-- A car tried is taken, or is no candidate, or is passed. -/
theorem trySelect_passed {c : CarIx} (can : canSelect (trySelect s c) c = true) :
    (trySelect s c).Passed c := by
  unfold trySelect at can ⊢
  split at can
  · rw [selectCar_not_can] at can; cases can
  · rename_i untaken
    rw [if_neg untaken]
    by_cases room : s.serviceCount < nsel s.store.active
    · exact .inr (Bool.eq_false_iff.2 fun fits => untaken ⟨can, room, fits⟩)
    · exact .inl (Nat.not_lt.1 room)

/-- Each candidate that a pass over `l` leaves was passed. -/
theorem foldl_trySelect_passed : ∀ (l : List CarIx) (s : State) {d : CarIx}, d ∈ l →
    canSelect (l.foldl trySelect s) d = true → (l.foldl trySelect s).Passed d
  | [], _, _, mem, _ => by cases mem
  | c :: l, s, d, mem, can => by
    rw [List.foldl_cons] at can ⊢
    rcases List.mem_cons.1 mem with rfl | tail
    · have rest := foldl_trySelect_filled l (trySelect s d)
      exact rest.passed (trySelect_passed (rest.can d can))
    · exact foldl_trySelect_passed l _ tail can

theorem trySelect_role {c d : CarIx} (was : s.role d ≠ .service)
    (taken : (trySelect s c).role d = .service) : d = c ∧ s.serviceCount < nsel s.store.active := by
  unfold trySelect at taken
  split at taken
  · rename_i h
    refine ⟨?_, h.2.1⟩
    by_contra ne
    rw [State.role, selectCar_car, if_neg ne] at taken
    exact was taken
  · exact absurd taken was

/-- A car taken in a pass over `l` was tried while Nsel was not filled. -/
theorem foldl_trySelect_taken : ∀ (l : List CarIx) (s : State) {c : CarIx}, s.role c ≠ .service →
    (l.foldl trySelect s).role c = .service →
    ∃ front back, l = front ++ c :: back ∧
      (front.foldl trySelect s).serviceCount < nsel s.store.active
  | [], _, _, was, taken => absurd taken was
  | d :: l, s, c, was, taken => by
    rw [List.foldl_cons] at taken
    by_cases now : (trySelect s d).role c = .service
    · obtain ⟨rfl, room⟩ := trySelect_role was now
      exact ⟨[], l, rfl, room⟩
    · obtain ⟨front, back, split, room⟩ := foldl_trySelect_taken l _ now taken
      refine ⟨d :: front, back, by rw [split]; rfl, ?_⟩
      rw [(trySelect_filled d s).only.store] at room
      exact room

/-! ## The order of the candidates -/

theorem rankOf_le (t : Image) (c : CarIx) : rankOf t c ≤ 3 := by
  unfold rankOf
  split
  · have bound : ∀ n, (rankOrder n).length = 3 := fun n => by unfold rankOrder; split <;> rfl
    exact (List.idxOf_le_length).trans (bound _).le
  · exact Nat.le_refl 3

theorem mem_carsByRank (t : Image) (c : CarIx) : c ∈ carsByRank t := by
  have rank := rankOf_le t c
  rw [carsByRank, List.mem_flatMap]
  refine ⟨rankOf t c, ?_, by simp [mem_allCars]⟩
  interval_cases rankOf t c <;> simp

/-- The cars stand by class rank, then by index (R112). -/
theorem carsByRank_sorted (t : Image) : (carsByRank t).Pairwise fun a b =>
    rankOf t a < rankOf t b ∨ rankOf t a = rankOf t b ∧ a.val < b.val := by
  rw [carsByRank, List.pairwise_flatMap]
  constructor
  · intro r _
    have indices : allCars.Pairwise fun a b => a.val < b.val := by decide
    refine (indices.filter _).imp_of_mem fun {a b} ha hb lt => .inr ⟨?_, lt⟩
    simp only [List.mem_filter, beq_iff_eq] at ha hb
    rw [ha.2, hb.2]
  · have ranks : [0, 1, 2, 3].Pairwise fun a b : Nat => a < b := by decide
    refine ranks.imp fun {a b} lt x hx y hy => .inl ?_
    simp only [List.mem_filter, beq_iff_eq] at hx hy
    rw [hx.2, hy.2]
    exact lt

/-- A candidate that comes before another stands ahead of each of its places in the order. -/
theorem mem_front_of_selectsBefore {d c : CarIx} (before : s.selectsBefore d c)
    (listed : d ∈ selectionOrder s) {front back : List CarIx}
    (order : selectionOrder s = front ++ c :: back) : d ∈ front := by
  by_contra out
  unfold State.selectsBefore at before
  unfold selectionOrder at order listed
  cases mode : s.plan.mode with
  | automatic =>
    simp only [mode] at before order listed
    have sorted := carsByRank_sorted s.store.active
    rw [order] at sorted listed
    have tail := (List.mem_append.1 listed).resolve_left out
    rcases List.mem_cons.1 tail with rfl | later
    · omega
    · have := (List.pairwise_cons.1 (List.pairwise_append.1 sorted).2.1).1 d later
      omega
  | manual =>
    simp only [mode] at before order
    rw [order, List.idxOf_append_of_notMem out] at before
    have own : (front ++ c :: back).idxOf c ≤ front.length := by
      rw [List.idxOf_append]
      split
      · exact List.idxOf_le_length
      · simp
    omega

theorem mem_selectionOrder {c : CarIx} (h : s.Selectable c) : c ∈ selectionOrder s := by
  unfold selectionOrder
  split
  · exact mem_carsByRank ..
  · rename_i mode; exact h.2.2.2.2 mode

theorem State.Selectable.can {c : CarIx} (h : s.Selectable c) : canSelect s c = true :=
  (canSelect_iff s c).2 ⟨h.1, h.2.1, h.2.2.1, h.2.2.2.1⟩

/-! ## Roles, notices and the service order through the selections and grants -/

/-- Each car that came into role SERVICE since `s` is powered, in the service order and told (R112). -/
def State.TakenWell (s t : State) : Prop :=
  ∀ c, s.role c ≠ .service → t.role c = .service →
    (t.car c).powered = true ∧ c ∈ t.plan.serviceOrder ∧
    (t.configured c = true → t.hasNotice (.car c) CarNotice.selected.number = true)

theorem carGrant_role (c d : CarIx) (s : State) : (carGrant c s).role d = s.role d := by
  rw [State.role, carGrant_car]
  split
  · rename_i same; rw [same]; rfl
  · rfl

theorem GrantMove.takenWell {s0 : State} (m : GrantMove s t) (h : s0.TakenWell s) :
    s0.TakenWell t := by
  have only := m.move.only
  have configured (c : CarIx) : t.configured c = s.configured c := by
    simp only [State.configured, only.store]
  -- a car that was in role SERVICE before the move keeps its power, its place and its notice
  have kept (c : CarIx) (was : s0.role c ≠ .service) (role : s.role c = .service)
      (power : (s.car c).powered = true → (t.car c).powered = true)
      (order : c ∈ s.plan.serviceOrder → c ∈ t.plan.serviceOrder) :
      (t.car c).powered = true ∧ c ∈ t.plan.serviceOrder ∧
      (t.configured c = true → t.hasNotice (.car c) CarNotice.selected.number = true) := by
    obtain ⟨on, listed, told⟩ := h c was role
    exact ⟨power on, order listed, fun k => only.hasNotice (told (configured c ▸ k))⟩
  intro c was role
  cases m with
  | select d =>
    by_cases same : c = d
    · subst same
      refine ⟨by rw [selectCar_car, if_pos rfl], by rw [selectCar_plan]; simp, fun k => ?_⟩
      rw [configured] at k
      exact State.hasNotice_noticeCar (s := { s.updCar c fun r =>
          { r with role := .service, powered := true } with
        plan := { s.plan with serviceOrder := s.plan.serviceOrder ++ [c] } }) k .selected
    · refine kept c was ?_ ?_ ?_
      · rwa [State.role, selectCar_car, if_neg same] at role
      · rw [selectCar_car, if_neg same]; exact id
      · rw [selectCar_plan]; exact List.mem_append_left _
  | carGrant d =>
    refine kept c was (by rwa [carGrant_role] at role) ?_ (by rw [carGrant_plan]; exact id)
    rw [carGrant_car]
    split
    · exact fun _ => rfl
    · exact id
  | panelGrant e => exact kept c was role id id
  | draw n => exact kept c was role id id

theorem GrantMoves.takenWell (m : GrantMoves s t) : s.TakenWell t := by
  induction m with
  | refl => exact fun c was role => absurd role was
  | tail _ last ih => exact last.takenWell ih

/-- Selections and grants leave the phase, the overcommit and the cars in recall. -/
theorem GrantMoves.plan (m : GrantMoves s t) : t.plan.phase = s.plan.phase ∧
    t.account.overcommit = s.account.overcommit ∧ t.recallCount = s.recallCount := by
  induction m with
  | refl => exact ⟨rfl, rfl, rfl⟩
  | tail _ last ih =>
    rename_i u v _
    suffices k : v.plan.phase = u.plan.phase ∧ v.account.overcommit = u.account.overcommit ∧
        v.recallCount = u.recallCount from
      ⟨k.1.trans ih.1, k.2.1.trans ih.2.1, k.2.2.trans ih.2.2⟩
    cases last with
    | select c allowed can =>
      refine ⟨by rw [selectCar_plan], by rw [(State.control_iff.1 (selectCar_control u c)).1], ?_⟩
      rw [State.recallCount, State.recallCount,
        funext fun d => selectCar_inRecall c d u (canSelect_parked can)]
    | carGrant c =>
      refine ⟨by rw [carGrant_plan], by rw [(State.control_iff.1 (carGrant_control u c)).1], ?_⟩
      have same : (carGrant c u).inRecall = u.inRecall := by
        funext d
        have preLoss : ((carGrant c u).car d).preLoss = (u.car d).preLoss := by
          rw [carGrant_car]
          split
          · rename_i e; rw [e]; rfl
          · rfl
        simp only [State.inRecall, carGrant_role, preLoss]
      rw [State.recallCount, State.recallCount, same]
    | panelGrant e => exact ⟨rfl, rfl, rfl⟩
    | draw n => exact ⟨rfl, rfl, rfl⟩

theorem grantIfDue_role (s0 s : State) (c : CarIx) : (grantIfDue s0 s).role c = s.role c := by
  have car : (carGrantRule s).role c = s.role c := by
    unfold carGrantRule
    split
    · split
      · exact carGrant_role ..
      · rfl
    · rfl
  unfold grantIfDue
  split
  · unfold grantRule
    split
    · split
      · split
        · rfl
        · exact car
      · exact car
    · rfl
  · rfl

/-! ## What the run leaves -/

/-- After a run on `y`, and grants that leave every role, a candidate left fits nowhere, unless Nsel is filled. -/
theorem selectionRun_full {y : State} (allowed : selectionAllowed y = true)
    (filled : Filled (selectionRun y) t) :
    nsel t.store.active ≤ t.serviceCount ∨ ∀ c, t.Selectable c → ¬ t.RoomFor c := by
  by_cases full : nsel t.store.active ≤ t.serviceCount
  · exact .inl full
  · refine .inr fun c selectable room => ?_
    have run : selectionRun y = (selectionOrder y).foldl trySelect y := if_pos allowed
    have only := (foldl_trySelect_filled (selectionOrder y) y).only.trans (run ▸ filled.only)
    have listed : c ∈ selectionOrder y := by
      have inOrder := mem_selectionOrder selectable
      unfold selectionOrder at inOrder ⊢
      rwa [only.mode.1, only.mode.2, only.store] at inOrder
    rw [run] at filled
    have passed := filled.passed
      (foldl_trySelect_passed (selectionOrder y) y listed (filled.can c selectable.can))
    rcases passed with enough | fits
    · exact full enough
    · rw [(t.selectionFits_iff c).2 room] at fits; cases fits

/-- A car that the run on `y` takes leaves no candidate ahead of it that fits. -/
theorem selectionRun_first {y : State} {c d : CarIx} (was : y.role c ≠ .service)
    (taken : (selectionRun y).role c = .service) (filled : Filled (selectionRun y) t)
    (selectable : t.Selectable d) (before : t.selectsBefore d c) : ¬ t.RoomFor d := by
  intro room
  unfold selectionRun at taken filled
  split at taken
  · rename_i allowed
    rw [if_pos allowed] at filled
    have only := (foldl_trySelect_filled (selectionOrder y) y).only.trans filled.only
    have sameOrder : selectionOrder t = selectionOrder y := by
      simp only [selectionOrder, only.mode.1, only.mode.2, only.store]
    obtain ⟨front, back, order, unfilled⟩ := foldl_trySelect_taken _ y was taken
    have ahead : d ∈ front :=
      mem_front_of_selectsBefore before (mem_selectionOrder selectable) (sameOrder.trans order)
    have rest : Filled (front.foldl trySelect y) t := by
      have tail := foldl_trySelect_filled (c :: back) (front.foldl trySelect y)
      rw [← List.foldl_append, ← order] at tail
      exact tail.trans filled
    rcases foldl_trySelect_passed front y ahead (rest.can d selectable.can) with enough | fits
    · rw [(foldl_trySelect_filled front y).only.store] at enough; omega
    · rw [rest.fits d ((t.selectionFits_iff d).2 room)] at fits; cases fits
  · exact was taken

/-- A selection run made with the grant of one event, in either order, leaves what R112 says. -/
theorem selectAndGrant_made {k : Cause} {s0 x : State} (sound : x.EntriesSound)
    (due : selectionDue k s0 x = true) (was : ∀ c, s.inService c = false → x.role c ≠ .service) :
    s.SelectionMade (selectAndGrant k s0 x) := by
  obtain ⟨y, n, before, e⟩ : ∃ y n, (y = x ∨ y = grantIfDue s0 x) ∧ selectAndGrant k s0 x =
      { grantIfDue s0 (selectionRun y) with freeIx := n } := by
    rw [selectAndGrant, if_pos due]
    obtain ⟨n, e | e⟩ := eitherOrder_cases (grantIfDue s0 (selectionRun x))
      (grantIfDue s0 (selectionRun (grantIfDue s0 x)))
    · exact ⟨x, n, .inl rfl, e⟩
    · exact ⟨grantIfDue s0 x, n, .inr rfl, e⟩
  have ySound : y.EntriesSound := by
    rcases before with rfl | rfl
    · exact sound
    · exact (grantIfDue_moves s0 x).entriesSound sound
  have yRole (c : CarIx) : y.role c = x.role c := by
    rcases before with rfl | rfl
    · rfl
    · exact grantIfDue_role s0 x c
  have run := selectionRun_grantMoves y
  have rest : GrantMoves (selectionRun y) (selectAndGrant k s0 x) := by
    rw [e]; exact (grantIfDue_grantMoves s0 _).tail (.draw n)
  have filled := rest.filled (run.moves.entriesSound ySound)
  have role (c : CarIx) : (selectAndGrant k s0 x).role c = (selectionRun y).role c := by
    rw [e]; exact grantIfDue_role s0 _ c
  refine ⟨fun phase quiet away => ?_, fun c inService taken => ?_⟩
  · obtain ⟨samePhase, sameHeld, sameCount⟩ := GrantMoves.plan (run.trans rest)
    have single : (selectAndGrant k s0 x).singleCar = y.singleCar := by
      simp only [State.singleCar, (GrantMoves.moves (run.trans rest)).only.store]
    refine selectionRun_full ?_ filled
    rw [single, sameCount] at away
    rw [samePhase] at phase
    rw [sameHeld] at quiet
    simp only [selectionAllowed, phase, quiet, beq_self_eq_true, Bool.true_and, Bool.or_eq_true,
      Bool.not_eq_true', beq_iff_eq]
    cases single : y.singleCar with
    | true => exact .inr (away single)
    | false => exact .inl rfl
  · have away : y.role c ≠ .service := by rw [yRole]; exact was c inService
    obtain ⟨power, listed, told⟩ := GrantMoves.takenWell (run.trans rest) c away taken
    rw [role] at taken
    exact ⟨power, listed, told, fun d selectable before =>
      selectionRun_first away taken filled selectable before⟩

/-! ## The event -/

theorem Choice.service (m : Choice s t) {c : CarIx} (role : t.role c = .service) :
    s.role c = .service := by
  cases m with
  | park d =>
    by_cases same : c = d
    · rw [State.role, deselect_car, if_pos same] at role; cases role
    · rwa [State.role, deselect_car, if_neg same] at role
  | land d =>
    rw [State.role, orderToLand_car] at role
    split at role
    · rename_i same; rw [same]; exact role
    · exact role
  | landReverse d =>
    rw [State.role, orderToLand_car] at role
    split at role
    · rename_i same; rw [same]; exact role
    · exact role

theorem Choices.service (m : Choices s t) {c : CarIx} (role : t.role c = .service) :
    s.role c = .service := by
  induction m with
  | refl => exact role
  | tail _ last ih => exact ih (last.service role)

theorem PlanKept.service (h : PlanKept s t) {c : CarIx} (role : t.role c = .service) :
    s.role c = .service := by
  rcases h.record c with same | ⟨-, called | parked, -⟩
  · rwa [State.role, same] at role
  · rw [called] at role; cases role
  · rw [parked] at role; cases role

theorem recheckWalk_role (s t : State) (l : List CarIx) (c : CarIx) :
    (recheckWalk s l t).role c = t.role c :=
  List.foldlRecOn (motive := fun u : State => u.role c = t.role c) l _ rfl fun u h d _ => by
    split
    · rw [State.role, dropEntry_car]
      split
      · rename_i same; rw [same.1] at h ⊢; exact h
      · exact h
    · exact h

/-- The state on which an event's selection and grant are made. -/
def shedded (k : Cause) (s0 s : State) : State :=
  shedIfDue k s0 (recheckIfDue s0 (evaluated s0 s))

theorem shedded_moves (k : Cause) (s0 s : State) : Moves s (shedded k s0 s) :=
  ((evaluated_moves s0 s).trans (recheckIfDue_moves s0 _)).trans (shedIfDue_moves k s0 _)

theorem evaluate_role (s : State) (c : CarIx) : (evaluate s).role c = s.role c := by
  rw [State.role, evaluate_car]; rfl

theorem shedded_service {k : Cause} {s0 s : State} {c : CarIx}
    (role : (shedded k s0 s).role c = .service) : s.role c = .service := by
  have checked : (recheckIfDue s0 (evaluated s0 s)).role c = .service := by
    unfold shedded shedIfDue at role
    split at role
    · rw [evaluate_role] at role
      exact (shedPass_choices _).service ((advancePlan_kept s0 _).service role)
    · exact role
  refine (advancePlan_kept s0 s).service ?_
  rw [← evaluate_role]
  unfold recheckIfDue at checked
  split at checked
  · rwa [recheck_eq_walk, recheckWalk_role] at checked
  · exact checked

/-- An event whose own change raises the offer or lowers a reserve makes a selection run (R39, R112). -/
theorem closeEvent_selects {k : Cause} {s0 x : State} (sound : x.EntriesSound)
    (rise : s0.account.offer < x.account.offer ∨ x.rs < s0.rs)
    (was : ∀ c, s.inService c = false → x.role c ≠ .service) : s.SelectionMade (closeEvent k s0 x) := by
  have moves := shedded_moves k s0 x
  have limits := moves.only.limits
  have offer : (shedded k s0 x).account.offer = x.account.offer := congrArg (fun l => l.1) limits
  have reserves : (shedded k s0 x).rs = x.rs := by
    rw [State.rs_eq, State.rs_eq, show (shedded k s0 x).account.reserves = x.account.reserves from
      congrArg (fun l => l.2.2.2) limits]
  have due : selectionDue k s0 (shedded k s0 x) = true := by
    unfold selectionDue
    rw [offer, reserves]
    rcases rise with up | down
    · simp [up]
    · simp [down]
  exact selectAndGrant_made (moves.entriesSound sound) due fun c away role =>
    was c away (shedded_service role)

end Sys2Proof.Machine
end

section
/-!
PROOFS. A shed pass (R122 to R128): what its choices leave, that no choice makes a car eligible or a shortfall
greater, the order in which victims are taken, and that each step goes on until its shortfall is gone or no
victim is left.
-/

namespace Sys2Proof.Machine

variable {s t u : State}

/-! ## No car becomes eligible -/

theorem TripState.not_still_of_running {t : TripState} (h : t = .running) : t.still ≠ true := by
  rw [h]; decide

/-- From `s` to `t` no car has become eligible for a pass: a role changed only where the car does not run and
does not serve now, a trip only between NONE and WAITING, and no order to land was taken back. -/
structure FewerVictims (s t : State) : Prop where
  store : t.store = s.store
  inputs : ∀ c, (t.car c).inputs = (s.car c).inputs
  figures : ∀ c, (t.trip c).figures = (s.trip c).figures
  state : ∀ c, (t.trip c).state = (s.trip c).state ∨
    (t.trip c).state.still = true ∧ (s.trip c).state.still = true
  role : ∀ c, t.role c = s.role c ∨ t.role c ≠ .service ∧ (s.trip c).state.still = true
  ordered : ∀ c, (s.trip c).shedOrdered = true → (t.trip c).shedOrdered = true

namespace FewerVictims

theorem still (h : FewerVictims s t) (c : CarIx) :
    (t.trip c).state.still = true ↔ (s.trip c).state.still = true := by
  rcases h.state c with same | ⟨after, before⟩
  · rw [same]
  · exact iff_of_true after before

theorem running (h : FewerVictims s t) (c : CarIx) :
    (t.trip c).state = .running ↔ (s.trip c).state = .running := by
  rcases h.state c with same | ⟨after, before⟩
  · rw [same]
  · exact iff_of_false (fun r => TripState.not_still_of_running r after)
      fun r => TripState.not_still_of_running r before

/-- A running car's role is kept. -/
theorem role_of_running (h : FewerVictims s t) {c : CarIx} (running : (s.trip c).state = .running) :
    t.role c = s.role c :=
  (h.role c).resolve_right fun k => TripState.not_still_of_running running k.2

theorem service (h : FewerVictims s t) {c : CarIx} (serves : t.role c = .service) :
    s.role c = .service := by
  rcases h.role c with same | ⟨away, -⟩
  · exact same ▸ serves
  · exact absurd serves away

theorem link (h : FewerVictims s t) (c : CarIx) : (t.car c).link = (s.car c).link :=
  congrArg CarInputs.link (h.inputs c)

theorem demand (h : FewerVictims s t) (c : CarIx) : (t.trip c).kind = (s.trip c).kind ∧
    (t.trip c).n = (s.trip c).n ∧ (t.trip c).ret = (s.trip c).ret :=
  ⟨congrArg (fun f => f.demand.kind) (h.figures c), congrArg (fun f => f.demand.n) (h.figures c),
    congrArg (fun f => f.demand.ret) (h.figures c)⟩

theorem feeder (h : FewerVictims s t) (c : CarIx) : t.feeder c = s.feeder c := by
  rw [State.feeder, State.feeder, h.store]

theorem not_ordered (h : FewerVictims s t) {c : CarIx} (no : (t.trip c).shedOrdered = false) :
    (s.trip c).shedOrdered = false :=
  Bool.eq_false_iff.2 fun was => by rw [h.ordered c was] at no; cases no

theorem mayPark (h : FewerVictims s t) {c : CarIx} (may : t.MayPark c) : s.MayPark c := by
  obtain ⟨serves, up, still⟩ := may
  exact ⟨h.service serves, h.link c ▸ up, (h.still c).1 still⟩

theorem mayLand (h : FewerVictims s t) {role : Role} {c : CarIx} (may : t.MayLand role c) :
    s.MayLand role c := by
  obtain ⟨own, up, running, motoring, load, free⟩ := may
  have running := (h.running c).1 running
  obtain ⟨kind, run, -⟩ := h.demand c
  exact ⟨h.role_of_running running ▸ own, h.link c ▸ up, running, kind ▸ motoring, run ▸ load,
    h.not_ordered free⟩

theorem mayLandReverse (h : FewerVictims s t) {c : CarIx} (may : t.MayLandReverse c) :
    s.MayLandReverse c := by
  obtain ⟨own, up, running, regen, load, free⟩ := may
  have running := (h.running c).1 running
  obtain ⟨kind, -, ret⟩ := h.demand c
  exact ⟨h.role_of_running running ▸ own, h.link c ▸ up, running, kind ▸ regen, ret ▸ load,
    h.not_ordered free⟩

end FewerVictims

/-! ## What a run of choices leaves -/

/-- What the choices of a pass leave: cars are deselected and ordered to land, and nothing else happens. -/
structure PassKept (s t : State) : Prop where
  only : OnlyDecisions s t
  account : t.account = s.account
  gate : t.gate = s.gate
  order : t.plan.serviceOrder.Sublist s.plan.serviceOrder
  role : ∀ c, t.role c = s.role c ∨
    s.role c = .service ∧ t.role c = .parked ∧ (s.trip c).state.still = true
  state : ∀ c, (t.trip c).state = (s.trip c).state ∨
    (t.trip c).state.still = true ∧ (s.trip c).state.still = true
  ordered : ∀ c, (s.trip c).shedOrdered = true → (t.trip c).shedOrdered = true
  charge : ∀ c, (t.car c).charge ≤ (s.car c).charge
  victims : s.shed.victims.Sublist t.shed.victims

namespace PassKept

theorem refl (s : State) : PassKept s s where
  only := .refl s
  account := rfl
  gate := rfl
  order := .refl _
  role _ := .inl rfl
  state _ := .inl rfl
  ordered _ := id
  charge _ := Nat.le_refl _
  victims := .refl _

theorem trans (h : PassKept s t) (k : PassKept t u) : PassKept s u where
  only := h.only.trans k.only
  account := k.account.trans h.account
  gate := k.gate.trans h.gate
  order := k.order.trans h.order
  role c := by
    rcases k.role c with same | ⟨service, parked, still⟩
    · rw [same]; exact h.role c
    · rcases h.role c with same | ⟨-, away, -⟩
      · refine .inr ⟨same ▸ service, parked, ?_⟩
        rcases h.state c with e | e
        · rwa [← e]
        · exact e.2
      · rw [away] at service; cases service
  state c := by
    rcases k.state c with same | ⟨after, before⟩
    · rw [same]; exact h.state c
    · rcases h.state c with e | e
      · exact .inr ⟨after, by rwa [← e]⟩
      · exact .inr ⟨after, e.2⟩
  ordered c := fun was => k.ordered c (h.ordered c was)
  charge c := (k.charge c).trans (h.charge c)
  victims := h.victims.trans k.victims

theorem fewer (h : PassKept s t) : FewerVictims s t where
  store := h.only.store
  inputs := h.only.cars
  figures := h.only.figures
  state := h.state
  role c := (h.role c).imp_right fun ⟨_, parked, still⟩ => ⟨by rw [parked]; decide, still⟩
  ordered := h.ordered

/-! No shortfall grows. -/

theorem relief (h : PassKept s t) (p : Victim → Bool) : s.relief p ≤ t.relief p :=
  ((h.victims.filter _).map _).sum_le_sum fun _ _ => Nat.zero_le _

theorem shortOfCapacity (h : PassKept s t) (short : t.ShortOfCapacity) : s.ShortOfCapacity := by
  have load : t.lc ≤ s.lc := sumCars_mono h.charge
  have relief := h.relief fun v => v.kind = .capacity
  unfold State.ShortOfCapacity State.headroom State.rs State.reserveAmount at short ⊢
  rw [h.account] at short
  omega

theorem shortOnFeeder (h : PassKept s t) {f : FeederIx} (short : t.ShortOnFeeder f) :
    s.ShortOnFeeder f := by
  obtain ⟨table, short⟩ := short
  have store := h.only.store
  have single : s.singleCar = false := by rw [State.singleCar, ← store]; exact table
  have load : t.feederLoad f ≤ s.feederLoad f := by
    rw [State.feederLoad_of_table table, State.feederLoad_of_table single]
    refine sumCars_mono fun c => ?_
    rw [h.fewer.feeder]
    split
    · exact h.charge c
    · exact Nat.le_refl 0
  have relief := h.relief fun v => v.kind = .capacity && v.feeder = f
  have rating : t.rating f = s.rating f := by rw [State.rating, State.rating, store]
  refine ⟨single, ?_⟩
  rw [rating] at short
  omega

end PassKept

theorem deselect_trip_eq (c d : CarIx) (s : State) : (deselect c s).trip d =
    if d = c ∧ (s.trip c).state = .waiting then
      { s.trip c with state := .none, verdict := .dropped .role } else s.trip d := by
  rw [deselect_trip, dropEntry_trip]

/-- A deselection takes the car off the generator; its trip, idle, was charged nothing. -/
theorem deselect_charge (c d : CarIx) (s : State) :
    ((deselect c s).car d).charge ≤ (s.car d).charge := by
  have trip : ((deselect c s).car d).trip.charge ≤ (s.car d).trip.charge := by
    show ((deselect c s).trip d).charge ≤ (s.trip d).charge
    rw [deselect_trip_eq]
    split
    · exact Nat.zero_le _
    · exact Nat.le_refl _
  have standing : ((deselect c s).car d).standing ≤ (s.car d).standing := by
    rw [deselect_car]
    split
    · exact Nat.zero_le _
    · exact Nat.le_refl _
  exact Nat.add_le_add standing trip

theorem deselect_kept {c : CarIx} (may : s.MayPark c) : PassKept s (deselect c s) where
  only := deselect_only (.refl s) c
  account := deselect_account c s
  gate := by simp only [deselect, State.noticeCar_gate, State.updCar_gate, park, leavePlan, dropEntry_gate]
  order := by rw [deselect_plan]; exact List.filter_sublist
  role d := by
    rw [State.role, deselect_car]
    split
    · rename_i same; rw [same]; exact .inr ⟨may.1, rfl, may.2.2⟩
    · exact .inl rfl
  state d := by
    rw [deselect_trip_eq]
    split
    · rename_i waits; rw [waits.1, waits.2]; exact .inr ⟨rfl, rfl⟩
    · exact .inl rfl
  ordered d was := by
    rw [deselect_trip_eq]
    split
    · rename_i waits; rw [← waits.1]; exact was
    · exact was
  charge d := deselect_charge c d s
  victims := by
    rw [show (deselect c s).shed = s.shed from (State.control_iff.1 (deselect_control s c)).2]

theorem orderToLand_trip (c d : CarIx) (k : VictimKind) (n : Nat) (s : State) :
    (orderToLand c k n s).trip d =
      if d = c then { s.trip c with shedOrdered := true } else s.trip d := by
  rw [State.trip, orderToLand_car]
  split <;> rfl

/-- The entry of a car ordered to land, its supervision just started (R126). -/
theorem orderToLand_victims (c : CarIx) (k : VictimKind) (n : Nat) (s : State) :
    (orderToLand c k n s).shed.victims = s.shed.victims ++
      [{ car := c, kind := k, relief := n, feeder := s.feeder c, standing := .counting,
         timer := s.startTimer (2 * (multiplier s.store.active + 1) * (s.car c).profile.tland) }] := by
  have only : OnlyDecisions s ((s.updTrip c fun x => { x with shedOrdered := true }).noticeCar c .shed) :=
    .thenCar (OnlyDecisions.thenUpdTrip (.refl s) (fun _ => by rfl))
  unfold orderToLand
  extract_lets t
  have tland : (t.car c).profile.tland = (s.car c).profile.tland :=
    congrArg (fun i => i.profile.tland) (only.cars c)
  have shed : t.shed = s.shed := by simp [t]
  simp only [shed, State.startTimer, shedLimit, superviseLimit, State.feeder, only.now, only.store,
    tland, t]

theorem orderToLand_kept (c : CarIx) (k : VictimKind) (n : Nat) (s : State) :
    PassKept s (orderToLand c k n s) where
  only := orderToLand_only (.refl s) c k n
  account := orderToLand_account c k n s
  gate := by simp [orderToLand]
  order := by rw [orderToLand_plan]
  role d := by
    rw [State.role, orderToLand_car]
    split
    · rename_i same; rw [same]; exact .inl rfl
    · exact .inl rfl
  state d := by
    rw [orderToLand_trip]
    split
    · rename_i same; rw [same]; exact .inl rfl
    · exact .inl rfl
  ordered d was := by
    rw [orderToLand_trip]
    split
    · rfl
    · exact was
  charge d := by
    rw [orderToLand_car]
    split
    · rename_i same; rw [same]; exact Nat.le_refl _
    · exact Nat.le_refl _
  victims := by rw [orderToLand_victims]; exact List.sublist_append_left ..

/-! ## The victims of a choice (R124) -/

theorem sublist_of_find?_reverse {l : List CarIx} {p : CarIx → Bool} {c d : CarIx}
    (found : l.reverse.find? p = some c) (listed : d ∈ l) (also : p d = true) (ne : d ≠ c) :
    [d, c].Sublist l := by
  obtain ⟨-, front, back, split, none⟩ := List.find?_eq_some_iff_append.1 found
  have parts : l = back.reverse ++ c :: front.reverse := by
    rw [← l.reverse_reverse, split]; simp
  have ahead : d ∈ back := by
    rw [parts] at listed
    simp only [List.mem_append, List.mem_reverse, List.mem_cons] at listed
    rcases listed with h | h | h
    · exact h
    · exact absurd h ne
    · have := none d h
      simp [also] at this
  rw [parts]
  exact (List.singleton_sublist.2 (List.mem_reverse.2 ahead)).append
    (List.singleton_sublist.2 (List.mem_cons_self ..))

theorem idxOf_lt_of_sublist {l : List CarIx} {c d : CarIx} (once : l.Nodup)
    (pair : [d, c].Sublist l) : l.idxOf d < l.idxOf c := by
  have ne : d ≠ c := by
    have := pair.nodup once
    simpa using this
  induction l with
  | nil => cases pair
  | cons x l ih =>
    obtain ⟨out, once⟩ := List.nodup_cons.1 once
    cases pair with
    | cons _ pair =>
      have hd : x ≠ d := fun e => out (e ▸ pair.subset (by simp))
      have hc : x ≠ c := fun e => out (e ▸ pair.subset (by simp))
      rw [List.idxOf_cons_ne _ hd, List.idxOf_cons_ne _ hc]
      exact Nat.succ_lt_succ (ih once pair)
    | cons_cons _ pair =>
      rw [List.idxOf_cons_self, List.idxOf_cons_ne _ ne]
      exact Nat.succ_pos _

/-- The service order and the stack hold each car once, and the cars that a pass looks for there. -/
structure State.ShedLists (s : State) : Prop where
  orderOnce : s.plan.serviceOrder.Nodup
  service : ∀ c, s.role c = .service → c ∈ s.plan.serviceOrder
  stackOnce : s.gate.stack.Nodup
  running : ∀ c, (s.trip c).state = .running → c ∈ s.gate.stack

theorem onFeeder_some {f : FeederIx} {c : CarIx} : onFeeder s (some f) c = true ↔ s.feeder c = f := by
  simp [onFeeder]

theorem onFeeder_of_eq {f : Option FeederIx} {c d : CarIx} (h : onFeeder s f c = true)
    (same : s.feeder d = s.feeder c) : onFeeder s f d = true := by
  cases f with
  | none => rfl
  | some f => rw [onFeeder_some] at h ⊢; exact same.trans h

/-- An idle service car that can be taken in tier 1. -/
def canPark (s : State) (f : Option FeederIx) (c : CarIx) : Bool :=
  s.role c == .service && (s.car c).link == .up && (s.trip c).state.still && onFeeder s f c

theorem idleVictim_eq (s : State) (f : Option FeederIx) :
    idleVictim s f = s.plan.serviceOrder.reverse.find? (canPark s f) := rfl

theorem canPark_iff (s : State) (f : Option FeederIx) (c : CarIx) :
    canPark s f c = true ↔ s.MayPark c ∧ onFeeder s f c = true := by
  simp [canPark, State.MayPark, and_assoc]

theorem canLand_iff (s : State) (role : Role) (f : Option FeederIx) (c : CarIx) :
    canLand s role f c = true ↔ s.MayLand role c ∧ onFeeder s f c = true := by
  simp [canLand, State.MayLand, and_assoc]

theorem idleVictim_some {f : Option FeederIx} {c : CarIx} (victim : idleVictim s f = some c) :
    s.MayPark c ∧ onFeeder s f c = true := by
  rw [idleVictim_eq] at victim
  exact (canPark_iff ..).1 (List.find?_some victim)

/-- The idle service car selected last is taken. -/
theorem idleVictim_newest (lists : s.ShedLists) {f : Option FeederIx} {c d : CarIx}
    (victim : idleVictim s f = some c) (may : s.MayPark d) (feeder : s.feeder d = s.feeder c)
    (ne : d ≠ c) : [d, c].Sublist s.plan.serviceOrder := by
  have own := (idleVictim_some victim).2
  rw [idleVictim_eq] at victim
  exact sublist_of_find?_reverse victim (lists.service d may.1)
    ((canPark_iff ..).2 ⟨may, onFeeder_of_eq own feeder⟩) ne

theorem idleVictim_none (lists : s.ShedLists) {f : Option FeederIx} (none : idleVictim s f = none)
    {d : CarIx} (feeder : onFeeder s f d = true) : ¬ s.MayPark d := by
  rw [idleVictim_eq, List.find?_eq_none] at none
  intro may
  exact none d (List.mem_reverse.2 (lists.service d may.1)) ((canPark_iff ..).2 ⟨may, feeder⟩)

theorem rankOf_mem (t : Image) (c : CarIx) : rankOf t c ∈ [3, 2, 1, 0] := by
  have := rankOf_le t c
  interval_cases rankOf t c <;> simp

theorem landVictim_some {role : Role} {f : Option FeederIx} {c : CarIx}
    (victim : landVictim s role f = some c) : s.MayLand role c ∧ onFeeder s f c = true := by
  obtain ⟨-, k, -, -, found, -⟩ := List.findSome?_eq_some_iff.1 victim
  have := List.find?_some found
  rw [Bool.and_eq_true, canLand_iff] at this
  exact this.1

/-- The last-ranked class is taken first, and the latest grant within it. -/
theorem landVictim_last (lists : s.ShedLists) {role : Role} {f : Option FeederIx} {c d : CarIx}
    (victim : landVictim s role f = some c) (may : s.MayLand role d)
    (feeder : s.feeder d = s.feeder c) (ne : d ≠ c) :
    rankOf s.store.active d < rankOf s.store.active c ∨
    rankOf s.store.active d = rankOf s.store.active c ∧ [d, c].Sublist s.gate.stack := by
  have own := (landVictim_some victim).2
  have can : canLand s role f d = true := (canLand_iff ..).2 ⟨may, onFeeder_of_eq own feeder⟩
  have listed := lists.running d may.2.2.1
  obtain ⟨before, k, after, ranks, found, none⟩ := List.findSome?_eq_some_iff.1 victim
  have rank := List.find?_some found
  rw [Bool.and_eq_true, beq_iff_eq] at rank
  have sorted : [3, 2, 1, 0].Pairwise fun a b : Nat => b < a := by decide
  have place := rankOf_mem s.store.active d
  rw [ranks] at sorted place
  rw [rank.2]
  rcases List.mem_append.1 place with earlier | later
  · have nobody := List.find?_eq_none.1 (none _ earlier) d (List.mem_reverse.2 listed)
    simp [can] at nobody
  · rcases List.mem_cons.1 later with same | lower
    · exact .inr ⟨same, sublist_of_find?_reverse found listed (by simp [can, same]) ne⟩
    · exact .inl ((List.pairwise_cons.1 (List.pairwise_append.1 sorted).2.1).1 _ lower)

theorem landVictim_none (lists : s.ShedLists) {role : Role} {f : Option FeederIx}
    (none : landVictim s role f = none) {d : CarIx} (feeder : onFeeder s f d = true) :
    ¬ s.MayLand role d := by
  intro may
  have can : canLand s role f d = true := (canLand_iff ..).2 ⟨may, feeder⟩
  have nobody := List.find?_eq_none.1
    (List.findSome?_eq_none_iff.1 none _ (rankOf_mem s.store.active d)) d
    (List.mem_reverse.2 (lists.running d may.2.2.1))
  simp [can] at nobody

/-- A running regenerating trip that can be ordered to land. -/
def canLandReverse (s : State) (c : CarIx) : Bool :=
  (s.role c == .recall || s.role c == .service) && (s.car c).link == .up &&
  (s.trip c).state == .running && (s.trip c).kind == .regen && decide (0 < (s.trip c).ret) &&
  !(s.trip c).shedOrdered

theorem reverseVictim_eq (s : State) :
    reverseVictim s = s.gate.stack.reverse.find? (canLandReverse s) := rfl

theorem canLandReverse_iff (s : State) (c : CarIx) :
    canLandReverse s c = true ↔ s.MayLandReverse c := by
  simp [canLandReverse, State.MayLandReverse, and_assoc, or_comm]

theorem reverseVictim_some {c : CarIx} (victim : reverseVictim s = some c) : s.MayLandReverse c := by
  rw [reverseVictim_eq] at victim
  exact (canLandReverse_iff ..).1 (List.find?_some victim)

/-- The latest grant among the regenerating cars is taken (R128). -/
theorem reverseVictim_latest (lists : s.ShedLists) {c d : CarIx} (victim : reverseVictim s = some c)
    (may : s.MayLandReverse d) (ne : d ≠ c) : [d, c].Sublist s.gate.stack := by
  rw [reverseVictim_eq] at victim
  exact sublist_of_find?_reverse victim (lists.running d may.2.2.1) ((canLandReverse_iff ..).2 may) ne

theorem reverseVictim_none (lists : s.ShedLists) (none : reverseVictim s = none) (d : CarIx) :
    ¬ s.MayLandReverse d := by
  rw [reverseVictim_eq, List.find?_eq_none] at none
  intro may
  exact none d (List.mem_reverse.2 (lists.running d may.2.2.1)) ((canLandReverse_iff ..).2 may)

theorem Choice.kept (m : Choice s t) : PassKept s t := by
  cases m with
  | park c f victim => exact deselect_kept (idleVictim_some victim).1
  | land c => exact orderToLand_kept ..
  | landReverse c => exact orderToLand_kept ..

theorem Choices.kept (m : Choices s t) : PassKept s t := by
  induction m with
  | refl => exact .refl s
  | tail _ last ih => exact ih.trans last.kept

theorem Choice.lists (m : Choice s t) (h : s.ShedLists) : t.ShedLists where
  orderOnce := m.kept.order.nodup h.orderOnce
  stackOnce := by rw [m.kept.gate]; exact h.stackOnce
  running c run := by rw [m.kept.gate]; exact h.running c ((m.kept.fewer.running c).1 run)
  service d role := by
    have was := h.service d (m.service role)
    cases m with
    | park c =>
      rw [deselect_plan]
      refine List.mem_filter.2 ⟨was, bne_iff_ne.2 ?_⟩
      rintro rfl
      rw [State.role, deselect_car, if_pos rfl] at role
      cases role
    | land c => rwa [orderToLand_plan]
    | landReverse c => rwa [orderToLand_plan]

theorem Choices.lists (m : Choices s t) (h : s.ShedLists) : t.ShedLists := by
  induction m with
  | refl => exact h
  | tail _ last ih => exact last.lists ih

end Sys2Proof.Machine
end

section
/-!
PROOFS. The whole of a shed pass (R122 to R128): the order in which its victims were taken, its steps run to their
end, and that what goes before and after the pass within an event leaves what the pass is told by.
-/

namespace Sys2Proof.Machine

variable {s t u : State}

/-! ## The order in which victims were taken -/

/-- Car c was ordered to land on the way from `a` to `t`. -/
def State.NewlyOrdered (a t : State) (c : CarIx) : Prop :=
  (a.trip c).shedOrdered = false ∧ (t.trip c).shedOrdered = true

/-- The entry a car ordered to land has in the victim set, its supervision started at `a` (R126, R128). -/
def State.HasEntry (a t : State) (c : CarIx) : Prop :=
  ∃ v ∈ t.shed.victims, v.car = c ∧ v.feeder = t.feeder c ∧ v.standing = .counting ∧
    v.kind = (if (t.trip c).kind = .motoring then .capacity else .reverse) ∧
    v.relief = (if (t.trip c).kind = .motoring then (t.trip c).n else (t.trip c).ret) ∧
    v.timer = a.startTimer (2 * (multiplier a.store.active + 1) * (a.car c).profile.tland)

/-- What a run of choices from `a` to `t` shows of the order in which it took its victims (R124, R126, R128). -/
structure ShedChosen (a t : State) : Prop where
  running : ∀ c, a.NewlyOrdered t c → (t.trip c).state = .running
  newest : ∀ c d, a.role c = .service → t.role c ≠ .service → t.feeder d = t.feeder c → t.MayPark d →
    [d, c].Sublist a.plan.serviceOrder
  entry : ∀ c, a.NewlyOrdered t c → a.HasEntry t c
  told : ∀ c, a.NewlyOrdered t c → t.configured c = true →
    t.hasNotice (.car c) CarNotice.shed.number = true
  tier : ∀ c d, a.NewlyOrdered t c → (t.trip c).kind = .motoring → t.feeder d = t.feeder c →
    ¬ t.MayPark d ∧ (t.role c = .recall → ¬ t.MayLand .service d) ∧
    (t.MayLand (t.role c) d →
      rankOf t.store.active d < rankOf t.store.active c ∨
      rankOf t.store.active d = rankOf t.store.active c ∧ [d, c].Sublist t.gate.stack)
  latest : ∀ c d, a.NewlyOrdered t c → (t.trip c).kind = .regen → t.MayLandReverse d →
    [d, c].Sublist t.gate.stack

theorem ShedChosen.refl (a : State) : ShedChosen a a := by
  have nobody (c : CarIx) : ¬ a.NewlyOrdered a c := fun ⟨no, yes⟩ => by rw [no] at yes; cases yes
  exact ⟨fun c h => absurd h (nobody c), fun c d was away => absurd was away,
    fun c h => absurd h (nobody c), fun c h => absurd h (nobody c), fun c d h => absurd h (nobody c),
    fun c d h => absurd h (nobody c)⟩

/-- What a later choice leaves of a car ordered earlier. -/
theorem PassKept.entry {a : State} (h : PassKept s t) {c : CarIx} (entry : a.HasEntry s c) :
    a.HasEntry t c := by
  obtain ⟨v, mem, car, feeder, counts, kind, relief, timer⟩ := entry
  obtain ⟨sameKind, sameN, sameRet⟩ := h.fewer.demand c
  refine ⟨v, h.victims.subset mem, car, by rw [h.fewer.feeder]; exact feeder, counts, ?_, ?_, timer⟩
  · rw [sameKind]; exact kind
  · rw [sameKind, sameN, sameRet]; exact relief

theorem orderToLand_told {c : CarIx} {k : VictimKind} {n : Nat}
    (configured : s.configured c = true) :
    (orderToLand c k n s).hasNotice (.car c) CarNotice.shed.number = true := by
  have listed : (s.updTrip c fun x => { x with shedOrdered := true }).configured c = true := by
    rw [State.configured, State.updTrip_store]; exact configured
  exact State.hasNotice_noticeCar listed .shed

/-- The car ordered to land by a choice, which was eligible for it. -/
structure Landed (s t : State) (c : CarIx) (k : VictimKind) (n : Nat) : Prop where
  made : t = orderToLand c k n s
  running : (s.trip c).state = .running
  kind : k = if (s.trip c).kind = .motoring then .capacity else .reverse
  amount : n = if (s.trip c).kind = .motoring then (s.trip c).n else (s.trip c).ret

theorem Landed.entry {a : State} {c : CarIx} {k : VictimKind} {n : Nat} (h : Landed s t c k n)
    (only : OnlyDecisions a s) : a.HasEntry t c := by
  have tland : (s.car c).profile.tland = (a.car c).profile.tland :=
    congrArg (fun i => i.profile.tland) (only.cars c)
  have trip : (t.trip c) = { s.trip c with shedOrdered := true } := by
    rw [h.made, orderToLand_trip, if_pos rfl]
  have feeder : t.feeder c = s.feeder c := by rw [h.made]; exact (orderToLand_kept ..).fewer.feeder c
  refine ⟨⟨c, k, n, s.feeder c, .counting,
    s.startTimer (2 * (multiplier s.store.active + 1) * (s.car c).profile.tland)⟩, ?_, rfl, feeder.symm, rfl,
    ?_, ?_, ?_⟩
  · rw [h.made, orderToLand_victims]; simp
  · rw [trip]; exact h.kind
  · rw [trip]; exact h.amount
  · simp only [State.startTimer, only.now, only.store, tland]

/-- A choice of the pass is a deselection or an order to land. -/
theorem Choice.cases (m : Choice s t) :
    (∃ c f, idleVictim s f = some c ∧ t = deselect c s) ∨ ∃ c k n, Landed s t c k n := by
  cases m with
  | park c f victim => exact .inl ⟨c, f, victim, rfl⟩
  | land c role f noIdle tier victim =>
    have may := (landVictim_some victim).1
    obtain ⟨-, -, running, motoring, -, -⟩ := may
    exact .inr ⟨c, _, _, rfl, running, by rw [if_pos motoring], by rw [if_pos motoring]⟩
  | landReverse c victim =>
    obtain ⟨-, -, running, regen, -, -⟩ := reverseVictim_some victim
    exact .inr ⟨c, _, _, rfl, running, by rw [regen]; rfl, by rw [regen]; rfl⟩

/-- A car ordered to land by now was so before this choice, or is the one it orders. -/
theorem Choice.newly {a : State} (m : Choice s t) {c : CarIx} (new : a.NewlyOrdered t c) :
    a.NewlyOrdered s c ∨ (s.trip c).shedOrdered = false ∧ ∃ k n, Landed s t c k n := by
  cases was : (s.trip c).shedOrdered with
  | true => exact .inl ⟨new.1, was⟩
  | false =>
    refine .inr ⟨rfl, ?_⟩
    obtain ⟨-, now⟩ := new
    rcases m.cases with ⟨d, f, -, rfl⟩ | ⟨d, k, n, landed⟩
    · rw [deselect_trip_eq] at now
      split at now
      · rename_i same; rw [← same.1, was] at now; cases now
      · rw [was] at now; cases now
    · by_cases same : c = d
      · exact ⟨k, n, same ▸ landed⟩
      · rw [landed.made, orderToLand_trip, if_neg same, was] at now; cases now

/-- A car that a choice takes out of role SERVICE is the idle victim. -/
theorem Choice.parks (m : Choice s t) {c : CarIx} (was : s.role c = .service)
    (away : t.role c ≠ .service) : ∃ f, idleVictim s f = some c := by
  rcases m.cases with ⟨d, f, victim, rfl⟩ | ⟨d, k, n, landed⟩
  · by_cases same : c = d
    · exact ⟨f, same ▸ victim⟩
    · rw [State.role, deselect_car, if_neg same] at away
      exact absurd was away
  · rw [landed.made, State.role, orderToLand_car] at away
    split at away
    · rename_i same; rw [same] at was; exact absurd was away
    · exact absurd was away

theorem ne_of_ordered_of_free {c d : CarIx} (ordered : (t.trip c).shedOrdered = true)
    (free : (t.trip d).shedOrdered = false) : d ≠ c := by
  rintro rfl
  rw [ordered] at free
  cases free

/-- The choice that orders a car to land finds it as the victim of a tier, or of the reverse-power step. -/
theorem Choice.orders (m : Choice s t) {c : CarIx} (was : (s.trip c).shedOrdered = false)
    (now : (t.trip c).shedOrdered = true) :
    (∃ role f, idleVictim s f = none ∧
      (role = .service ∨ role = .recall ∧ landVictim s .service f = none) ∧
      landVictim s role f = some c) ∨ reverseVictim s = some c := by
  have own {x : CarIx} {k : VictimKind} {n : Nat}
      (now : ((orderToLand x k n s).trip c).shedOrdered = true) : c = x := by
    by_contra ne
    rw [orderToLand_trip, if_neg ne, was] at now
    cases now
  cases m with
  | park x f victim =>
    rw [deselect_trip_eq] at now
    split at now
    · rename_i same; rw [← same.1, was] at now; cases now
    · rw [was] at now; cases now
  | land x role f noIdle tier victim => exact .inl ⟨role, f, noIdle, tier, own now ▸ victim⟩
  | landReverse x victim => exact .inr (own now ▸ victim)

/-- The tiers of a choice that orders a motoring car to land (R124). -/
theorem Choice.tier (m : Choice s t) (lists : s.ShedLists) {c d : CarIx}
    (was : (s.trip c).shedOrdered = false) (now : (t.trip c).shedOrdered = true)
    (motoring : (s.trip c).kind = .motoring) (feeder : s.feeder d = s.feeder c) :
    ¬ s.MayPark d ∧ (s.role c = .recall → ¬ s.MayLand .service d) ∧
    (s.MayLand (s.role c) d → d ≠ c →
      rankOf s.store.active d < rankOf s.store.active c ∨
      rankOf s.store.active d = rankOf s.store.active c ∧ [d, c].Sublist s.gate.stack) := by
  rcases m.orders was now with ⟨role, f, noIdle, tier, victim⟩ | victim
  · obtain ⟨may, own⟩ := landVictim_some victim
    have on := onFeeder_of_eq own feeder
    rw [may.1]
    refine ⟨idleVictim_none lists noIdle on, fun called => ?_, fun mayLand ne =>
      landVictim_last lists victim mayLand feeder ne⟩
    rcases tier with service | ⟨-, noService⟩
    · rw [service] at called; cases called
    · exact landVictim_none lists noService on
  · obtain ⟨-, -, -, regen, -⟩ := reverseVictim_some victim
    rw [regen] at motoring; cases motoring

/-- The choice that orders a regenerating car to land takes the latest grant (R128). -/
theorem Choice.latest (m : Choice s t) (lists : s.ShedLists) {c d : CarIx}
    (was : (s.trip c).shedOrdered = false) (now : (t.trip c).shedOrdered = true)
    (regen : (s.trip c).kind = .regen) (may : s.MayLandReverse d) (ne : d ≠ c) :
    [d, c].Sublist s.gate.stack := by
  rcases m.orders was now with ⟨role, f, -, -, victim⟩ | victim
  · obtain ⟨-, -, -, motoring, -⟩ := (landVictim_some victim).1
    rw [motoring] at regen; cases regen
  · exact reverseVictim_latest lists victim may ne

theorem ShedChosen.choice {a : State} (h : ShedChosen a s) (kept : PassKept a s)
    (lists : s.ShedLists) (m : Choice s t) : ShedChosen a t := by
  have next := m.kept
  have store := next.only.store
  have feeders {c d : CarIx} (same : t.feeder d = t.feeder c) : s.feeder d = s.feeder c := by
    rwa [next.fewer.feeder, next.fewer.feeder] at same
  have newlyRunning : ∀ c, a.NewlyOrdered t c → (s.trip c).state = .running := fun c new => by
    rcases m.newly new with earlier | ⟨-, k, n, landed⟩
    · exact h.running c earlier
    · exact landed.running
  refine ⟨fun c new => (next.fewer.running c).2 (newlyRunning c new), fun c d was away feeder may => ?_,
    fun c new => ?_, fun c new configured => ?_, fun c d new motoring feeder => ?_,
    fun c d new regen may => ?_⟩
  · by_cases before : s.role c = .service
    · obtain ⟨f, victim⟩ := m.parks before away
      have ne : d ≠ c := by rintro rfl; exact away may.1
      exact (idleVictim_newest lists victim (next.fewer.mayPark may) (feeders feeder) ne).trans kept.order
    · exact h.newest c d was before (feeders feeder) (next.fewer.mayPark may)
  · rcases m.newly new with earlier | ⟨-, k, n, landed⟩
    · exact next.entry (h.entry c earlier)
    · exact landed.entry kept.only
  · have configured : s.configured c = true := by rw [State.configured, ← store]; exact configured
    rcases m.newly new with earlier | ⟨-, k, n, landed⟩
    · exact next.only.hasNotice (h.told c earlier configured)
    · rw [landed.made]; exact orderToLand_told configured
  · rw [(next.fewer.demand c).1] at motoring
    have role := next.fewer.role_of_running (newlyRunning c new)
    rw [store, next.gate, role]
    suffices ordered : ¬ s.MayPark d ∧ (s.role c = .recall → ¬ s.MayLand .service d) ∧
        (s.MayLand (s.role c) d → d ≠ c →
          rankOf s.store.active d < rankOf s.store.active c ∨
          rankOf s.store.active d = rankOf s.store.active c ∧ [d, c].Sublist s.gate.stack) by
      obtain ⟨idle, service, last⟩ := ordered
      exact ⟨fun may => idle (next.fewer.mayPark may), fun called may => service called (next.fewer.mayLand may),
        fun may => last (next.fewer.mayLand may) (ne_of_ordered_of_free new.2 may.2.2.2.2.2)⟩
    rcases m.newly new with earlier | ⟨was, -⟩
    · obtain ⟨idle, service, last⟩ := h.tier c d earlier motoring (feeders feeder)
      exact ⟨idle, service, fun may _ => last may⟩
    · exact m.tier lists was new.2 motoring (feeders feeder)
  · rw [(next.fewer.demand c).1] at regen
    rw [next.gate]
    rcases m.newly new with earlier | ⟨was, -⟩
    · exact h.latest c d earlier regen (next.fewer.mayLandReverse may)
    · exact m.latest lists was new.2 regen (next.fewer.mayLandReverse may)
        (ne_of_ordered_of_free new.2 may.2.2.2.2.2)

theorem Choices.chosen {a : State} (m : Choices a t) (lists : a.ShedLists) : ShedChosen a t := by
  induction m with
  | refl => exact .refl a
  | tail earlier last ih => exact ih.choice (Choices.kept earlier) (Choices.lists earlier lists) last

/-! ## Each step to its end -/

/-- The cars that a pass can still take. -/
def State.pool (s : State) (c : CarIx) : Bool :=
  s.role c == .service && (s.trip c).state.still ||
  (s.trip c).state == .running && !(s.trip c).shedOrdered

theorem State.pool_iff (s : State) (c : CarIx) : s.pool c = true ↔
    s.role c = .service ∧ (s.trip c).state.still = true ∨
    (s.trip c).state = .running ∧ (s.trip c).shedOrdered = false := by
  simp [State.pool]

theorem FewerVictims.pool (h : FewerVictims s t) {c : CarIx} (may : t.pool c = true) :
    s.pool c = true := by
  rw [State.pool_iff] at may ⊢
  exact may.imp (fun ⟨serves, still⟩ => ⟨h.service serves, (h.still c).1 still⟩)
    fun ⟨running, free⟩ => ⟨(h.running c).1 running, h.not_ordered free⟩

/-- How many cars a pass can still take. -/
def State.poolSize (s : State) : Nat := (Finset.univ.filter fun c => s.pool c = true).card

theorem State.poolSize_le (s : State) : s.poolSize ≤ 24 :=
  (Finset.card_le_univ _).trans (by decide)

/-- A choice takes a car out of the pool. -/
theorem Choice.poolSize_lt (m : Choice s t) : t.poolSize < s.poolSize := by
  obtain ⟨c, was, taken⟩ : ∃ c, s.pool c = true ∧ t.pool c = false := by
    suffices taken : ∃ c, s.pool c = true ∧ ¬ t.pool c = true by
      simpa only [Bool.not_eq_true] using taken
    simp only [State.pool_iff]
    have landed {c : CarIx} {k : VictimKind} {n : Nat} (running : (s.trip c).state = .running) :
        ¬ (((orderToLand c k n s).role c = .service ∧
            ((orderToLand c k n s).trip c).state.still = true) ∨
          ((orderToLand c k n s).trip c).state = .running ∧
            ((orderToLand c k n s).trip c).shedOrdered = false) := by
      rw [orderToLand_trip, if_pos rfl]
      simp [running, TripState.still, TripState.moving]
    cases m with
    | park c f victim =>
      obtain ⟨service, -, still⟩ := (idleVictim_some victim).1
      refine ⟨c, .inl ⟨service, still⟩, ?_⟩
      rintro (⟨role, -⟩ | ⟨running, -⟩)
      · rw [State.role, deselect_car, if_pos rfl] at role; cases role
      · exact TripState.not_still_of_running
          (((deselect_kept (idleVictim_some victim).1).fewer.running c).1 running) still
    | land c role f noIdle tier victim =>
      obtain ⟨-, -, running, -, -, free⟩ := (landVictim_some victim).1
      exact ⟨c, .inr ⟨running, free⟩, landed running⟩
    | landReverse c victim =>
      obtain ⟨-, -, running, -, -, free⟩ := reverseVictim_some victim
      exact ⟨c, .inr ⟨running, free⟩, landed running⟩
  refine Finset.card_lt_card ⟨fun d hd => ?_, fun back => ?_⟩
  · simp only [Finset.mem_filter, Finset.mem_univ, true_and] at hd ⊢
    exact m.kept.fewer.pool hd
  · have := back (by simpa using was : c ∈ Finset.univ.filter fun c => s.pool c = true)
    simp [taken] at this

/-- A step of the pass goes on until its shortfall is gone or no victim is left (R122). -/
theorem shedStep_ends {short : State → Bool} {one : State → Option State}
    (choice : ∀ s t, one s = some t → Choice s t) : ∀ (k : Nat) (s : State), s.poolSize ≤ k →
    short (shedStep short one k s) = true → one (shedStep short one k s) = none
  | 0, s, enough, _ => by
    cases next : one s with
    | none => exact next
    | some t => have := (choice s t next).poolSize_lt; omega
  | k + 1, s, enough, stands => by
    unfold shedStep at stands ⊢
    by_cases more : short s = true
    · rw [if_pos more] at stands ⊢
      cases next : one s with
      | none => simp only [next] at stands ⊢
      | some t =>
        simp only [next] at stands ⊢
        have := (choice s t next).poolSize_lt
        exact shedStep_ends choice k t (by omega) stands
    · rw [if_neg more] at stands
      exact absurd stands more

theorem shedStep_spared {short : State → Bool} {one : State → Option State} (none : short s = false) :
    ∀ k, shedStep short one k s = s
  | 0 => rfl
  | k + 1 => by rw [shedStep, none]; rfl

/-- No victim of any tier is left on the feeder. -/
def State.NoVictim (s : State) (f : Option FeederIx) : Prop :=
  ∀ d, onFeeder s f d = true → ¬ s.MayPark d ∧ ¬ s.MayLand .service d ∧ ¬ s.MayLand .recall d

theorem FewerVictims.noVictim (h : FewerVictims s t) {f : Option FeederIx} (none : s.NoVictim f) :
    t.NoVictim f := by
  intro d on
  have was : onFeeder s f d = true := by
    cases f with
    | none => rfl
    | some f => rw [onFeeder_some] at on ⊢; rwa [h.feeder] at on
  obtain ⟨idle, service, called⟩ := none d was
  exact ⟨fun may => idle (h.mayPark may), fun may => service (h.mayLand may),
    fun may => called (h.mayLand may)⟩

theorem shedOne_none (lists : s.ShedLists) {f : Option FeederIx} (none : shedOne f s = none) :
    s.NoVictim f := by
  unfold shedOne at none
  split at none
  · cases none
  · rename_i noIdle
    split at none
    · cases none
    · rename_i noService
      split at none
      · cases none
      · rename_i noRecall
        exact fun d on => ⟨idleVictim_none lists noIdle on, landVictim_none lists noService on,
          landVictim_none lists noRecall on⟩

theorem capacityShort_iff (s : State) : capacityShort s = true ↔ s.ShortOfCapacity := by
  simp only [capacityShort, decide_eq_true_eq, State.ShortOfCapacity, capacityRelief, reliefOf,
    State.relief, beq_eq_decide]

theorem feederShort_iff (f : FeederIx) (s : State) : feederShort f s = true ↔ s.ShortOnFeeder f := by
  simp only [feederShort, Bool.and_eq_true, Bool.not_eq_true', decide_eq_true_eq, State.ShortOnFeeder,
    feederRelief, reliefOf, State.relief, beq_eq_decide]

theorem reverseShort_iff (s : State) : reverseShort s = true ↔ s.ShortOfReverse := by
  simp only [reverseShort, decide_eq_true_eq, State.ShortOfReverse, reverseRelief, reliefOf,
    State.relief, beq_eq_decide]

/-- A shortfall that stands after its step, and after any further choice, has no victim left. -/
theorem shedStep_noVictim {short : State → Bool} {f : Option FeederIx} (lists : s.ShedLists)
    (stands : short (shedStep short (shedOne f) 24 s) = true) :
    (shedStep short (shedOne f) 24 s).NoVictim f :=
  shedOne_none (Choices.lists (shedStep_choices (fun _ _ => shedOne_choice) 24 s) lists)
    (shedStep_ends (fun _ _ => shedOne_choice) 24 s s.poolSize_le stands)

theorem feederSteps_noVictim : ∀ {l : List FeederIx} {s : State},
    s.ShedLists → ∀ f ∈ l, (feederSteps s l).ShortOnFeeder f → (feederSteps s l).NoVictim (some f)
  | [], _, _, _, mem, _ => by cases mem
  | g :: l, s, lists, f, mem, stands => by
    have first := shedStep_choices (short := feederShort g) (fun _ _ => shedOne_choice (f := some g)) 24 s
    have rest := feederSteps_choices l (shedStep (feederShort g) (shedOne (some g)) 24 s)
    rcases List.mem_cons.1 mem with rfl | later
    · exact (Choices.kept rest).fewer.noVictim (shedStep_noVictim lists
        ((feederShort_iff ..).2 ((Choices.kept rest).shortOnFeeder stands)))
    · exact feederSteps_noVictim (l := l) (Choices.lists first lists) f later stands

/-- With no shortfall a pass chooses nothing. -/
theorem shedPass_spared (capacity : ¬ s.ShortOfCapacity) (feeder : ∀ f, ¬ s.ShortOnFeeder f)
    (reverse : ¬ s.ShortOfReverse) : shedPass s = s := by
  have feeders : ∀ l, feederSteps s l = s := fun l => by
    induction l with
    | nil => rfl
    | cons f l ih =>
      rw [feederSteps, List.foldl_cons, shedStep_spared (Bool.eq_false_iff.2 fun k =>
        feeder f ((feederShort_iff f s).1 k))]
      exact ih
  rw [shedPass_eq, shedStep_spared (Bool.eq_false_iff.2 fun k => capacity ((capacityShort_iff s).1 k)),
    feeders, shedStep_spared (Bool.eq_false_iff.2 fun k => reverse ((reverseShort_iff s).1 k))]

theorem shedPass_capacity (lists : s.ShedLists) (stands : (shedPass s).ShortOfCapacity) :
    (shedPass s).NoVictim none := by
  have rest : Choices (shedStep capacityShort (shedOne none) 24 s) (shedPass s) := by
    rw [shedPass_eq]
    exact (feederSteps_choices _ _).trans (shedStep_choices (fun _ _ => shedReverseOne_choice) 24 _)
  exact (Choices.kept rest).fewer.noVictim (shedStep_noVictim lists
    ((capacityShort_iff _).2 ((Choices.kept rest).shortOfCapacity stands)))

theorem shedPass_feeder (lists : s.ShedLists) {f : FeederIx} (stands : (shedPass s).ShortOnFeeder f) :
    (shedPass s).NoVictim (some f) := by
  have first := shedStep_choices (short := capacityShort) (fun _ _ => shedOne_choice (f := none)) 24 s
  have rest : Choices (feederSteps (shedStep capacityShort (shedOne none) 24 s) allFeeders) (shedPass s) := by
    rw [shedPass_eq]
    exact shedStep_choices (fun _ _ => shedReverseOne_choice) 24 _
  have every : ∀ f : FeederIx, f ∈ allFeeders := by decide
  exact (Choices.kept rest).fewer.noVictim (feederSteps_noVictim (Choices.lists first lists) f (every f)
    ((Choices.kept rest).shortOnFeeder stands))

theorem shedReverseOne_none (lists : s.ShedLists) (none : shedReverseOne s = none) (d : CarIx) :
    ¬ s.MayLandReverse d := by
  unfold shedReverseOne at none
  split at none
  · cases none
  · rename_i noVictim; exact reverseVictim_none lists noVictim d

theorem shedPass_reverse (lists : s.ShedLists) (stands : (shedPass s).ShortOfReverse) (d : CarIx) :
    ¬ (shedPass s).MayLandReverse d := by
  have done := Choices.lists (shedPass_choices s) lists
  rw [shedPass_eq] at stands done ⊢
  exact shedReverseOne_none done (shedStep_ends (fun _ _ => shedReverseOne_choice) 24 _
    (State.poolSize_le _) ((reverseShort_iff _).2 stands)) d

end Sys2Proof.Machine
end

section
/-!
PROOFS. What an event does beside its shed pass leaves what the pass is told by, so the pass shows in the event's
end state (R122 to R128).
-/

namespace Sys2Proof.Machine

variable {s t u : State}

/-- The account, the victim set, the stack and every car's standing before a pass read the same: roles change
only among cars that neither serve nor run, and trips only between NONE and WAITING. -/
structure ShedSame (s t : State) : Prop where
  account : SameAccount s t
  store : t.store = s.store
  now : t.now = s.now
  inputs : ∀ c, (t.car c).inputs = (s.car c).inputs
  figures : ∀ c, (t.trip c).figures = (s.trip c).figures
  victims : t.shed.victims = s.shed.victims
  stack : t.gate.stack = s.gate.stack
  state : ∀ c, (t.trip c).state = (s.trip c).state ∨
    (t.trip c).state.still = true ∧ (s.trip c).state.still = true
  ordered : ∀ c, (t.trip c).shedOrdered = (s.trip c).shedOrdered
  role : ∀ c, t.role c = s.role c ∨
    s.role c ≠ .service ∧ t.role c ≠ .service ∧ (s.trip c).state.still = true

namespace ShedSame

theorem fewer (h : ShedSame s t) : FewerVictims s t where
  store := h.store
  inputs := h.inputs
  figures := h.figures
  state := h.state
  role c := (h.role c).imp_right fun k => k.2
  ordered c was := (h.ordered c).trans was

theorem trans (h : ShedSame s t) (k : ShedSame t u) : ShedSame s u where
  account := h.account.trans k.account
  store := k.store.trans h.store
  now := k.now.trans h.now
  inputs c := (k.inputs c).trans (h.inputs c)
  figures c := (k.figures c).trans (h.figures c)
  victims := k.victims.trans h.victims
  stack := k.stack.trans h.stack
  state c := by
    rcases k.state c with same | ⟨after, -⟩
    · rw [same]; exact h.state c
    · exact .inr ⟨after, (h.fewer.still c).1 ((k.fewer.still c).1 after)⟩
  ordered c := (k.ordered c).trans (h.ordered c)
  role c := by
    rcases k.role c with same | ⟨before, after, still⟩
    · rw [same]; exact h.role c
    · refine .inr ⟨fun served => ?_, after, (h.fewer.still c).1 still⟩
      rcases h.role c with same | ⟨no, -⟩
      · exact before (same.trans served)
      · exact no served

theorem service (h : ShedSame s t) (c : CarIx) : t.role c = .service ↔ s.role c = .service := by
  rcases h.role c with same | ⟨before, after, -⟩
  · rw [same]
  · exact iff_of_false after before

theorem relief (h : ShedSame s t) (p : Victim → Bool) : t.relief p = s.relief p := by
  rw [State.relief, State.relief, h.victims]

theorem shortOfCapacity (h : ShedSame s t) : t.ShortOfCapacity ↔ s.ShortOfCapacity := by
  rw [State.ShortOfCapacity, State.ShortOfCapacity, h.account.headroom, h.relief]

theorem shortOnFeeder (h : ShedSame s t) (f : FeederIx) : t.ShortOnFeeder f ↔ s.ShortOnFeeder f := by
  rw [State.ShortOnFeeder, State.ShortOnFeeder, h.account.singleCar, h.account.rating,
    h.account.feederLoad, h.relief]

theorem shortOfReverse (h : ShedSame s t) : t.ShortOfReverse ↔ s.ShortOfReverse := by
  rw [State.ShortOfReverse, State.ShortOfReverse, h.account.lb, h.account.lr, h.relief,
    h.account.absorb]

end ShedSame

/-- A pass made on `y`, where all else that the event does is of no concern to it, shows from the event's own
change to its end. -/
theorem State.shedMade_of {a y t : State} (lists : y.ShedLists) (pre : ShedSame a y)
    (order : y.plan.serviceOrder = a.plan.serviceOrder) (post : ShedSame (shedPass y) t)
    (only : OnlyDecisions (shedPass y) t) : a.ShedMade t := by
  have chosen := Choices.chosen (shedPass_choices y) lists
  have done := Choices.lists (shedPass_choices y) lists
  have newly {c : CarIx} (no : (a.trip c).shedOrdered = false) (yes : (t.trip c).shedOrdered = true) :
      y.NewlyOrdered (shedPass y) c := ⟨pre.ordered c ▸ no, post.ordered c ▸ yes⟩
  have runs {c : CarIx} (new : y.NewlyOrdered (shedPass y) c) : t.role c = (shedPass y).role c :=
    post.fewer.role_of_running (chosen.running c new)
  have feeders {c d : CarIx} (same : t.feeder d = t.feeder c) :
      (shedPass y).feeder d = (shedPass y).feeder c := by
    rwa [post.fewer.feeder, post.fewer.feeder] at same
  have earlier {c d : CarIx} (pair : [d, c].Sublist (shedPass y).gate.stack) :
      t.gate.stack.idxOf d < t.gate.stack.idxOf c := by
    rw [post.stack]; exact idxOf_lt_of_sublist done.stackOnce pair
  refine ⟨fun capacity feeder reverse => ?_, fun short d => ?_, fun d short => ?_, fun short d may => ?_,
    fun c d was parked feeder may => ?_, fun c no yes => ⟨?_, fun configured => ?_⟩,
    fun c d no yes motoring feeder => ?_, fun c d no yes regen may => ?_⟩
  · have same : shedPass y = y := shedPass_spared (fun k => capacity (pre.shortOfCapacity.1 k))
      (fun f k => feeder f ((pre.shortOnFeeder f).1 k)) fun k => reverse (pre.shortOfReverse.1 k)
    rw [same] at post
    exact ⟨post.victims.trans pre.victims,
      fun c service => (post.service c).2 ((pre.service c).2 service)⟩
  · exact post.fewer.noVictim (shedPass_capacity lists (post.shortOfCapacity.1 short)) d rfl
  · exact post.fewer.noVictim (shedPass_feeder lists ((post.shortOnFeeder _).1 short)) d (onFeeder_some.2 rfl)
  · exact shedPass_reverse lists (post.shortOfReverse.1 short) d (post.fewer.mayLandReverse may)
  · have away : (shedPass y).role c ≠ .service := fun k => by
      rw [(post.service c).2 k] at parked; cases parked
    have pair := chosen.newest c d ((pre.service c).2 was) away (feeders feeder) (post.fewer.mayPark may)
    rw [← order]
    exact idxOf_lt_of_sublist lists.orderOnce pair
  · obtain ⟨v, mem, car, onFeeder, counts, kind, relief, timer⟩ := chosen.entry c (newly no yes)
    obtain ⟨sameKind, sameN, sameRet⟩ := post.fewer.demand c
    have tland : (y.car c).profile.tland = (a.car c).profile.tland :=
      congrArg (fun i => i.profile.tland) (pre.inputs c)
    refine ⟨v, by rw [post.victims]; exact mem, car, by rw [post.fewer.feeder]; exact onFeeder, counts,
      by rw [sameKind]; exact kind, by rw [sameKind, sameN, sameRet]; exact relief, ?_⟩
    rw [timer, State.startTimer, State.startTimer, pre.now, pre.store, tland]
  · exact only.hasNotice (chosen.told c (newly no yes)
      (by rw [State.configured, ← post.store]; exact configured))
  · rw [(post.fewer.demand c).1] at motoring
    have new := newly no yes
    obtain ⟨idle, service, last⟩ := chosen.tier c d new motoring (feeders feeder)
    rw [runs new, post.store]
    exact ⟨fun may => idle (post.fewer.mayPark may), fun called may => service called (post.fewer.mayLand may),
      fun may => (last (post.fewer.mayLand may)).imp_right fun k => ⟨k.1, earlier k.2⟩⟩
  · rw [(post.fewer.demand c).1] at regen
    exact earlier (chosen.latest c d (newly no yes) regen (post.fewer.mayLandReverse may))

/-! ## What the rest of the event leaves -/

theorem ShedSame.refl (s : State) : ShedSame s s where
  account := .refl s
  store := rfl
  now := rfl
  inputs _ := rfl
  figures _ := rfl
  victims := rfl
  stack := rfl
  state _ := .inl rfl
  ordered _ := rfl
  role _ := .inl rfl

/-- Where the records stay, only what the controller and the account hold is to be compared. -/
theorem ShedSame.of_cars (account : SameAccount s t) (only : OnlyDecisions s t) (cars : t.cars = s.cars)
    (victims : t.shed.victims = s.shed.victims) (stack : t.gate.stack = s.gate.stack) :
    ShedSame s t where
  account := account
  store := only.store
  now := only.now
  inputs := only.cars
  figures := only.figures
  victims := victims
  stack := stack
  state c := .inl (by rw [State.trip, State.trip, State.car, State.car, cars])
  ordered c := by rw [State.trip, State.trip, State.car, State.car, cars]
  role c := .inl (by rw [State.role, State.role, State.car, State.car, cars])

/-- An evaluation after which an overcommit is held leaves the victim set. -/
theorem evaluate_victims (holding : (evaluate s).account.overcommit = .holding) :
    (evaluate s).shed.victims = s.shed.victims := by
  unfold evaluate at holding ⊢
  split
  · rfl
  · rename_i held quiet
    simp only [held, quiet] at holding
    cases holding
  · rfl

theorem evaluate_shedSame (holding : (evaluate s).account.overcommit = .holding) :
    ShedSame s (evaluate s) := by
  obtain ⟨cars, -, -, gate⟩ := evaluate_eq s
  exact .of_cars (evaluate_sameAccount s) (evaluate_moves s).only cars (evaluate_victims holding)
    (by rw [gate])

theorem dropEntry_shedSame (c : CarIx) (r : DropReason) (s : State) : ShedSame s (dropEntry c r s) := by
  have only := dropEntry_only (.refl s) c r
  refine ⟨dropEntry_sameAccount c r s, only.store, only.now, only.cars, only.figures, ?_,
    by rw [dropEntry_gate], fun d => ?_, fun d => ?_, fun d => .inl ?_⟩
  · rw [(State.control_iff.1 (dropEntry_control ..)).2]
  · rw [dropEntry_trip]
    split
    · rename_i waits; rw [waits.1, waits.2]; exact .inr ⟨rfl, rfl⟩
    · exact .inl rfl
  · rw [dropEntry_trip]
    split
    · rename_i waits; rw [waits.1]
    · rfl
  · rw [State.role, dropEntry_car]
    split
    · rename_i waits; rw [waits.1]; rfl
    · rfl

theorem recheckIfDue_shedSame (s0 s : State) : ShedSame s (recheckIfDue s0 s) := by
  unfold recheckIfDue
  split
  · exact List.foldlRecOn (motive := ShedSame s) s.queue.entries _ (.refl s) fun t h c _ => by
      split
      · exact h.trans (dropEntry_shedSame ..)
      · exact h
  · exact .refl s

theorem recheckIfDue_plan (s0 s : State) : (recheckIfDue s0 s).plan = s.plan := by
  unfold recheckIfDue
  split
  · exact List.foldlRecOn (motive := fun t : State => t.plan = s.plan) s.queue.entries _ rfl
      fun t h c _ => by
        split
        · rw [dropEntry_plan, h]
        · exact h
  · rfl

/-- Calls concern HELD cars without a trip. -/
theorem PlanKept.shedSame (h : PlanKept s t) (only : OnlyDecisions s t) (sound : s.EntriesSound) :
    ShedSame s t where
  account := h.sameAccount only sound
  store := only.store
  now := only.now
  inputs := only.cars
  figures := only.figures
  victims := by rw [(State.control_iff.1 h.control).2]
  stack := by rw [h.gate]
  state c := .inl (congrArg Prod.fst (h.fate c))
  ordered := h.ordered
  role c := by
    rcases h.record c with same | ⟨⟨e, he, rfl⟩, role, -⟩
    · exact .inl (by rw [State.role, State.role, same])
    · obtain ⟨held, -, idle⟩ := sound.held e he
      refine .inr ⟨by rw [held]; decide, ?_, by rw [idle]; rfl⟩
      rcases role with called | parked
      · rw [called]; decide
      · rw [parked]; decide

/-- While an overcommit is held the gate grants a claim at most. -/
theorem GrantMove.shedSame (m : GrantMove s t) (holding : s.account.overcommit = .holding) :
    ShedSame s t := by
  cases m with
  | select c allowed =>
    have none := selectionAllowed_none allowed
    rw [holding] at none; cases none
  | carGrant c opened allowed =>
    have none := ((carGrantAllowed_iff s).1 allowed).2.1
    rw [holding] at none; cases none
  | panelGrant e =>
    exact .of_cars (.parts rfl rfl rfl rfl rfl) (panelGrant_only (.refl s) e) rfl rfl rfl
  | draw n => exact .of_cars (.parts rfl rfl rfl rfl rfl) (Move.draw n).only rfl rfl rfl

theorem GrantMoves.shedSame (m : GrantMoves s t) (holding : s.account.overcommit = .holding) :
    ShedSame s t := by
  induction m with
  | refl => exact .refl s
  | tail earlier last ih =>
    exact ih.trans (last.shedSame ((GrantMoves.plan earlier).2.1.trans holding))

theorem State.ShedLists.of_same (h : s.ShedLists) (same : ShedSame s t)
    (order : t.plan.serviceOrder = s.plan.serviceOrder) : t.ShedLists where
  orderOnce := by rw [order]; exact h.orderOnce
  service c role := by rw [order]; exact h.service c (same.fewer.service role)
  stackOnce := by rw [same.stack]; exact h.stackOnce
  running c run := by rw [same.stack]; exact h.running c ((same.fewer.running c).1 run)

theorem State.ShedLists.of_sound (consistent : s.Consistent) (records : s.RecordsSound) :
    s.ShedLists where
  orderOnce := records.serviceOrder.1
  service c role := (records.serviceOrder.2 c).2 (by simp [State.inService, role])
  stackOnce := consistent.stackNodup
  running c run := (consistent.stackExact c).2 (by rw [run]; rfl)

/-- An event that changes the figures and leaves an overcommit held makes a pass, which shows in its end. -/
theorem closeEvent_sheds {s0 x a : State} {k : Cause} (sound : x.EntriesSound) (lists : x.ShedLists)
    (still : advancePlan s0 x = x) (moved : x.figures ≠ s0.figures) (own : ShedSame a x)
    (order : x.plan.serviceOrder = a.plan.serviceOrder)
    (holding : (closeEvent k s0 x).account.overcommit = .holding) : a.ShedMade (closeEvent k s0 x) := by
  have grants := selectAndGrant_grantMoves k s0 (shedded k s0 x)
  have shedHolding : (shedded k s0 x).account.overcommit = .holding :=
    (GrantMoves.plan grants).2.1.symm.trans holding
  have start : evaluated s0 x = evaluate x := by rw [evaluated, still]
  have chain := (evaluated_moves s0 x).trans (recheckIfDue_moves s0 _)
  obtain ⟨y, made⟩ : ∃ y, y = recheckIfDue s0 (evaluated s0 x) := ⟨_, rfl⟩
  rw [← made] at chain
  have split : shedded k s0 x = shedIfDue k s0 y := by rw [made, shedded]
  have held : y.account.overcommit = .holding := by
    by_contra away
    rw [split, shedIfDue, if_neg fun due => away due.1] at shedHolding
    exact away shedHolding
  have evaluatedHolding : (evaluate x).account.overcommit = .holding := by
    rw [← start]
    have same : y.account = (evaluated s0 x).account := by
      rw [made, recheckIfDue]
      split
      · exact (State.control_iff.1 (recheck_control _)).1
      · rfl
    rw [← same]; exact held
  have toY : ShedSame x y := by
    rw [made, start]
    exact (evaluate_shedSame evaluatedHolding).trans (recheckIfDue_shedSame s0 _)
  have orderY : y.plan.serviceOrder = x.plan.serviceOrder := by
    rw [made, recheckIfDue_plan, start, (evaluate_eq x).2.2.1]
  have pass : shedIfDue k s0 y = evaluate (advancePlan s0 (shedPass y)) := by
    rw [shedIfDue, if_pos ⟨held, .inr (.inl (by rw [toY.account.figures]; exact moved))⟩]
  rw [split, pass] at grants shedHolding
  have passMoves := (shedPass_moves y held).1
  have passSound := passMoves.entriesSound (Moves.entriesSound chain sound)
  have called := (advancePlan_kept s0 (shedPass y)).shedSame (advancePlan_moves s0 _).only passSound
  have after : ShedSame (shedPass y) (closeEvent k s0 x) := by
    rw [closeEvent_eq, ← made, pass]
    exact (called.trans (evaluate_shedSame shedHolding)).trans (GrantMoves.shedSame grants shedHolding)
  refine State.shedMade_of (lists.of_same toY orderY) (own.trans toY) (orderY.trans order) after ?_
  rw [closeEvent_eq, ← made, pass]
  exact Moves.only (((advancePlan_moves s0 _).trans (evaluate_moves _)).trans (GrantMoves.moves grants))

end Sys2Proof.Machine
end

section
/-!
PROOFS. The units of a request as they are taken on a port (R136 to R138), events that change nothing, and what the
gate keeps through an event: the frame of the RESERVE and OFFER requests.
-/

namespace Sys2Proof.Machine

variable {s t : State}

/-! ## The gate through the moves -/

theorem deselect_gate (c : CarIx) (s : State) : (deselect c s).gate = s.gate := by
  simp only [deselect, State.noticeCar_gate, State.updCar_gate, park, leavePlan, dropEntry_gate]

/-- A move leaves a gate that is not OPEN, and makes no claim pending in one that is. -/
theorem Move.gate (m : Move s t) : t.gate = s.gate ∨ s.gate.state = .opened ∧
    (t.gate.pendingClaim = s.gate.pendingClaim ∨ t.gate.pendingClaim = none) := by
  cases m with
  | call => exact .inl (by rw [callCar_gate])
  | endRecall => exact .inl (endRecall_gate s)
  | drop c r => exact .inl (dropEntry_gate c r s)
  | deselect c => exact .inl (deselect_gate c s)
  | land => exact .inl (by simp [orderToLand])
  | landReverse => exact .inl (by simp [orderToLand])
  | select => exact .inl (by simp [selectCar])
  | carGrant c opened =>
    refine .inr ⟨opened, .inl ?_⟩
    rw [Machine.carGrant, State.noticeCar_gate]
    show (removeEntry c _).gate.pendingClaim = _
    rw [removeEntry, setEntries_gate, State.updCar_gate]
  | panelGrant e opened => exact .inr ⟨opened, .inr rfl⟩
  | _ => exact .inl rfl

theorem Moves.gate_of_shut (m : Moves s t) (shut : s.gate.state ≠ .opened) : t.gate = s.gate :=
  Moves.keeps (P := fun x => x.gate = s.gate) (fun _ _ same k => by
    rcases k.gate with e | ⟨opened, -⟩
    · exact e.trans same
    · rw [same] at opened; exact absurd opened shut) m rfl

theorem Moves.pendingClaim_none (m : Moves s t) (no : s.gate.pendingClaim = none) :
    t.gate.pendingClaim = none :=
  Moves.keeps (P := fun x => x.gate.pendingClaim = none) (fun _ _ no k => by
    rcases k.gate with e | ⟨-, e | e⟩
    · rw [e]; exact no
    · rw [e]; exact no
    · exact e) m no

/-! ## Events that change nothing -/

theorem someLeft_self (p : State → CarIx → Bool) (s : State) : someLeft p s s = false := by
  simp [someLeft]

theorem someJoined_self (p : State → CarIx → Bool) (s : State) : someJoined p s s = false := by
  simp [someJoined]

/-- An event that leaves the records, the plan and the supply link calls no car and ends no recall. -/
theorem advancePlan_of_same {s0 : State} (cars : s.cars = s0.cars) (plan : s.plan = s0.plan)
    (link : s.supplyLink = s0.supplyLink) : advancePlan s0 s = s := by
  have listing : listed s = listed s0 := by funext c; simp only [listed, plan]
  have recalled : s.inRecall = s0.inRecall := by
    funext c; simp only [State.inRecall, State.role, State.car, cars]
  have serving : s.inService = s0.inService := by
    funext c; simp only [State.inService, State.role, State.car, cars]
  have noCalls : callsDue s0 s = false := by
    simp [callsDue, someLeft, someJoined, supplyCameUp, listing, recalled, serving, plan, link]
    intro phase
    rw [phase]
    decide
  have noEnd : endCheckDue s0 s = false := by
    simp [endCheckDue, someLeft, listing, recalled, plan]
  simp [advancePlan, noCalls, noEnd]

theorem State.Settled.evaluate_eq_self (h : s.Settled) : evaluate s = s := by
  have := h.overcommit
  unfold evaluate
  split
  · rename_i none some; rw [this.2 some] at none; cases none
  · rename_i holding quiet; rw [this.1 holding] at quiet; cases quiet
  · rfl

theorem grantIfDue_self (s : State) : grantIfDue s s = s := by
  unfold grantIfDue
  split
  · rename_i due
    have shut : s.gate.state ≠ .opened := by
      simpa [grantDue, supplyCameUp, ← Option.not_isSome] using due
    rw [grantRule, if_neg shut]
  · rfl

/-- An event that changes nothing, closed in a settled state, has no consequence. -/
theorem closeEvent_self (h : s.Settled) : closeEvent {} s s = s := by
  have noRecheck : recheckDue s s = false := by
    simp [recheckDue, stepLowered]
  have noSelection : selectionDue {} s s = false := by
    cases phase : s.account.overcommit <;>
      simp [selectionDue, someLeft_self, someJoined_self, phase]
  have noPass : shedIfDue {} s s = s := by simp [shedIfDue]
  rw [closeEvent_eq, evaluated, advancePlan_of_same rfl rfl rfl, h.evaluate_eq_self, recheckIfDue,
    noRecheck, if_neg (by decide), noPass, selectAndGrant, noSelection, if_neg (by decide), grantIfDue_self]

/-! ## An event that begins with a write to the account -/

/-- The state `x` is `s` with the account `a`, but for ports, panel link and claims. -/
structure AccountWritten (s : State) (a : Account) (x : State) : Prop where
  cars : x.cars = s.cars
  queue : x.queue = s.queue
  plan : x.plan = s.plan
  shed : x.shed = s.shed
  store : x.store = s.store
  now : x.now = s.now
  account : x.account = a
  gate : x.gate.state = s.gate.state ∧ x.gate.stack = s.gate.stack

namespace AccountWritten

variable {a : Account} {x s0 : State}

theorem car (w : AccountWritten s a x) (c : CarIx) : x.car c = s.car c := by
  rw [State.car, State.car, w.cars]

theorem trip (w : AccountWritten s a x) (c : CarIx) : x.trip c = s.trip c := by
  rw [State.trip, State.trip, w.car]

theorem sameAccount (w : AccountWritten s a x) : SameAccount { s with account := a } x :=
  .parts w.cars (by rw [w.store]) (by rw [w.store]) (by rw [w.plan]) (by rw [w.account])

/-- The write's state reads to the controller as the one of the statements. -/
theorem shedSame (w : AccountWritten s a x) : ShedSame { s with account := a } x where
  account := w.sameAccount
  store := w.store
  now := w.now
  inputs c := congrArg CarRecord.inputs (w.car c)
  figures c := congrArg Trip.figures (w.trip c)
  victims := by rw [w.shed]
  stack := w.gate.2
  state c := .inl (congrArg Trip.state (w.trip c))
  ordered c := congrArg Trip.shedOrdered (w.trip c)
  role c := .inl (congrArg CarRecord.role (w.car c))

theorem entriesSound (w : AccountWritten s a x) (h : s.Consistent) : x.EntriesSound :=
  (State.EntriesSound.of_consistent h).of_eq w.car (by rw [w.queue]) (by rw [w.plan])

theorem ready (w : AccountWritten s a x) (h : s.Settled) (held : a.overcommit = s.account.overcommit) :
    x.Ready := by
  refine ⟨?_, ?_⟩
  · rw [w.account, held, w.shed]; exact h.controlled.ready.idle
  · rw [w.account, held, w.shed, w.plan]; exact h.controlled.ready.active

/-- A car newly in service is so by the event alone. -/
theorem away (w : AccountWritten s a x) (c : CarIx) (no : s.inService c = false) :
    x.role c ≠ .service := by
  intro serves
  have serving : s.role c = .service := by rw [State.role, ← w.car]; exact serves
  simp [State.inService, serving] at no

theorem recheckFails_eq (w : AccountWritten s a x) (c : CarIx) :
    recheckFails x c = recheckFails { s with account := a } c :=
  recheckFails_congr w.sameAccount (congrArg Trip.figures (w.trip c))
    (congrArg CarRecord.inputs (w.car c)) (congrArg CarRecord.powered (w.car c))

/-- An entry waits on, or is granted, or goes with its car's deselection, where no re-check drops it. -/
theorem keepsWaiting (w : AccountWritten s a x) (h : s.Consistent) (settled : s.Settled)
    (held : a.overcommit = s.account.overcommit) {c : CarIx} (waits : (s.trip c).state = .waiting)
    (passes : recheckDue s0 x = true → recheckFails x c = none) :
    s.KeepsWaiting { s with account := a } (closeEvent {} s0 x) c := by
  refine EntryStands.keepsWaiting (closeEvent_stands (w.ready settled held) (w.entriesSound h) ?_ passes
    fun some => w.sameAccount.anyCondition.symm.trans some)
  exact (EntryStands.of_waiting h waits _).of_same (congrArg Trip.fate (w.trip c)) (by rw [w.queue])
    fun opened => w.gate.1.symm.trans opened

/-- The re-check that a write to the account makes due (R92). -/
theorem rechecked (w : AccountWritten s a x) (h : s.Consistent) (settled : s.Settled)
    (held : a.overcommit = s.account.overcommit) (due : recheckDue s0 x = true) :
    s.Rechecked { s with account := a } (closeEvent {} s0 x) := by
  intro c waits
  obtain ⟨step, rest, passes⟩ := recheckFails_cases { s with account := a } c
  have dropped {r : DropReason} (fails : recheckFails { s with account := a } c = some r) :
      ((closeEvent {} s0 x).trip c).state = .none ∧
      ((closeEvent {} s0 x).trip c).verdict = .dropped r ∧
      c ∉ (closeEvent {} s0 x).queue.entries ∧ (s.configured c = true →
        (closeEvent {} s0 x).hasNotice (.car c) CarNotice.dropped.number = true) := by
    obtain ⟨gone, told⟩ := closeEvent_drops (k := {}) (w.entriesSound h) due
      ((w.recheckFails_eq c).trans fails) ((congrArg Trip.state (w.trip c)).trans waits)
      (by rw [w.queue]; exact (h.queueExact c).2 waits)
    refine ⟨congrArg Prod.fst gone.fate, congrArg Prod.snd gone.fate, gone.out, fun configured => told ?_⟩
    rw [State.configured, w.store]; exact configured
  exact ⟨fun fails => dropped (step fails), fun passed fails => dropped (rest passed fails),
    fun passed rests => w.keepsWaiting h settled held waits fun _ =>
      (w.recheckFails_eq c).trans (passes passed rests)⟩

end AccountWritten

/-! ## The same act on a port before and after an event -/

/-- An act on a port's interface that sets part of it and leaves the notices. -/
structure PortAct (f : PortIf → PortIf) : Prop where
  framing : ∀ i j : PortIf, i.framing = j.framing → (f i).framing = (f j).framing
  notices : ∀ i : PortIf, (f i).notices = i.notices

theorem OnlyDecisions.updPort (h : OnlyDecisions s t) {f : PortIf → PortIf} (act : PortAct f) (p : Port) :
    OnlyDecisions (s.updPort p f) (t.updPort p f) where
  store := h.store
  supplyLink := h.supplyLink
  panelLink := h.panelLink
  limits := h.limits
  mode := h.mode
  rstLow := h.rstLow
  now := h.now
  pending := h.pending
  cars := h.cars
  figures := h.figures
  framing q := by
    by_cases same : q = p
    · rw [same, State.updPort_port_same, State.updPort_port_same]
      exact act.framing _ _ (h.framing p)
    · rw [State.updPort_port_ne _ _ same, State.updPort_port_ne _ _ same]; exact h.framing q
  notices q := by
    by_cases same : q = p
    · rw [same, State.updPort_port_same, State.updPort_port_same, act.notices, act.notices]
      exact h.notices p
    · rw [State.updPort_port_ne _ _ same, State.updPort_port_ne _ _ same]; exact h.notices q

/-- The statements read of a base nothing of what the part decides. -/
theorem OnlyDecisions.of_gate {b : State} (h : OnlyDecisions s t) {g : Gate}
    (base : s = { b with gate := g }) : OnlyDecisions b t := by
  subst base
  exact ⟨h.store, h.supplyLink, h.panelLink, h.limits, h.mode, h.rstLow, h.now, h.pending, h.cars,
    h.figures, h.framing, h.notices⟩

theorem State.hasNotice_updPort (s : State) {f : PortIf → PortIf} (act : PortAct f) (p q : Port) (n : Nat) :
    (s.updPort p f).hasNotice q n = s.hasNotice q n := by
  unfold State.hasNotice
  by_cases same : q = p
  · rw [same, State.updPort_port_same, act.notices]
  · rw [State.updPort_port_ne _ _ same]

theorem State.SelectionMade.updPort (h : s.SelectionMade t) {f : PortIf → PortIf} (act : PortAct f)
    (p : Port) : s.SelectionMade (t.updPort p f) where
  full := h.full
  taken c away taken := by
    obtain ⟨on, listed, told, before⟩ := h.taken c away taken
    exact ⟨on, listed, by rw [State.hasNotice_updPort _ act]; exact told, before⟩

theorem State.KeepsWaiting.updPort {a : State} {c : CarIx} (h : s.KeepsWaiting a t c) (p : Port)
    (f : PortIf → PortIf) : s.KeepsWaiting a (t.updPort p f) c := h

theorem State.Rechecked.updPort {a : State} (h : s.Rechecked a t) {f : PortIf → PortIf}
    (act : PortAct f) (p : Port) : s.Rechecked a (t.updPort p f) := by
  intro c waits
  obtain ⟨step, rest, passes⟩ := h c waits
  dsimp only
  simp only [State.hasNotice_updPort _ act]
  exact ⟨step, rest, passes⟩

theorem State.ShedMade.updPort (h : s.ShedMade t) {f : PortIf → PortIf} (act : PortAct f)
    (p : Port) : s.ShedMade (t.updPort p f) where
  spared := h.spared
  capacity := h.capacity
  feeder := h.feeder
  reverse := h.reverse
  newest := h.newest
  ordered c was now := by
    obtain ⟨entry, told⟩ := h.ordered c was now
    exact ⟨entry, by rw [State.hasNotice_updPort _ act]; exact told⟩
  tier := h.tier
  latest := h.latest

/-! ## The units of a request -/

/-- The opcode unit of a request with arguments leaves it in progress (R137). -/
theorem shiftOpcode_opens {p : Port} {r : Request} (h : ignores s p = false)
    (named : Request.ofCode p r.code = some r) (writes : r.isRead = false) (plain : r ≠ .profile)
    (takes : r.argUnits [] ≠ 0) :
    shiftOpcode p r.code s = s.updPort p (.opened (some ⟨r, []⟩) none) := by
  rw [shiftOpcode, shiftUnit_eq h, if_neg (by decide), opcodeUnit, named]
  simp only [startRequest, writes, plain, takes, false_and, if_false, Bool.false_eq_true]
  rw [setRequest, endPrevious, State.updPort_updPort, State.updPort_updPort]
  rfl

/-- An argument unit that is taken by the request in progress (R138). -/
theorem shiftUnit_handed {p : Port} {q : InProgress} (h : ignores s p = false)
    (req : (s.port p).request = some q) (data : Byte) :
    shiftUnit p true data s =
      handUnit p { q with args := q.args ++ [data] } (s.updPort p (.carried 0xFF)) := by
  have out : s.updPort p (fun i => i.carried (i.dataFor true)) = s.updPort p (.carried 0xFF) := by
    simp only [State.updPort, PortIf.dataFor, req]
  rw [shiftUnit_eq h, if_pos rfl, argUnit, State.updPort_port_same]
  simp only [PortIf.carried, req]
  exact congrArg _ out

theorem ignores_opened {p : Port} (h : ignores s p = false) (q : Option InProgress)
    (rep : Option Reply) : ignores (s.updPort p (.opened q rep)) p = false :=
  (ignores_updPort s p _ rfl).trans h

end Sys2Proof.Machine
end

section
/-!
PROOFS. RESERVE (R21): what a write of a reserve entry does to the queue, the selection and the victims (O34).
-/

namespace Sys2Proof.Machine

variable {s t : State}

/-! ## The request as it is taken -/

/-- The state on which a RESERVE that came whole acts. -/
def reserveStart (s : State) : State := panelLinkUp (s.updPort .panel (.opened none none))

theorem shiftUnit_reserve (h : ignores s .panel = false) {l : List Byte} (more : l.length < 2)
    (u : Byte) : shiftUnit .panel true u (s.updPort .panel (.opened (some ⟨.reserve, l⟩) none)) =
      s.updPort .panel (.opened (some ⟨.reserve, l ++ [u]⟩) none) := by
  rw [shiftUnit_handed (ignores_opened h _ _) (by rw [State.updPort_port_same]; rfl)]
  have goesOn : (l ++ [u]).length < 3 := by simp; omega
  have step (x : State) : handUnit .panel ⟨.reserve, l ++ [u]⟩ x =
      setRequest .panel (some ⟨.reserve, l ++ [u]⟩) x := if_pos goesOn
  rw [step, setRequest, State.updPort_updPort, State.updPort_updPort]
  rfl

theorem exec_reserve (h : ignores s .panel = false) (e hi lo : Byte) :
    exec (.reserve (.opened [e, hi, lo])) s =
      .next (setOutcome .panel (takeReserve e (pairOf hi lo) (reserveStart s)).2
        (closeEvent {} (reserveStart s) (takeReserve e (pairOf hi lo) (reserveStart s)).1)) := by
  show Host.Outcome.next (shiftArgs .panel [e, hi, lo] (shiftOpcode .panel Request.reserve.code s)) = _
  rw [shiftOpcode_opens h (by decide) (by decide) (by decide) (by decide)]
  simp only [shiftArgs, List.foldl_cons, List.foldl_nil]
  have first := shiftUnit_reserve h (l := []) (by decide) e
  have second := shiftUnit_reserve h (l := [e]) (by simp) hi
  simp only [List.nil_append, List.cons_append] at first second
  rw [first, second, shiftUnit_handed (ignores_opened h _ _) (by rw [State.updPort_port_same]; rfl)]
  have last (x : State) : handUnit .panel ⟨.reserve, [e, hi, lo]⟩ x =
      complete .panel (closing {} (takeReserve e (pairOf hi lo))) x := rfl
  have start : linkUp .panel (setRequest .panel none ((s.updPort .panel
      (.opened (some ⟨.reserve, [e, hi]⟩) none)).updPort .panel (.carried 0xFF))) = reserveStart s := by
    rw [setRequest, State.updPort_updPort, State.updPort_updPort]
    rfl
  exact congrArg _ ((last _).trans (by rw [complete, start]; rfl))

/-! ## The write -/

/-- The account after a RESERVE of an entry. -/
def writtenAccount (s : State) (e : EntryIx) (v : Nat) : Account :=
  { s.account with reserves := s.account.reserves.set e.val (if v = 0 then none else some (min 4095 v)) }

/-- The gate after a RESERVE of an entry (R79). -/
def writtenGate (s : State) (e : EntryIx) (v : Nat) : Gate :=
  if v = 0 ∧ s.gate.pendingClaim = some e then { s.gate with pendingClaim := none } else s.gate

/-- A RESERVE as its own event's change. -/
def reserveWritten (s : State) (e : EntryIx) (v : Nat) : State :=
  { reserveStart s with account := writtenAccount s e v, gate := writtenGate s e v }

theorem takeReserve_written {e : Byte} (h : e.toNat < 8) (v : Nat) :
    takeReserve e v (reserveStart s) = (reserveWritten s ⟨e.toNat, h⟩ v, .accepted) := by
  have named : entryIxOf e = some ⟨e.toNat, h⟩ := dif_pos h
  unfold takeReserve reserveWritten writtenGate
  rw [named]
  dsimp only
  by_cases cancels : v = 0 ∧ s.gate.pendingClaim = some ⟨e.toNat, h⟩
  · rw [if_pos cancels]
    exact if_pos cancels
  · rw [if_neg cancels]
    exact if_neg cancels

theorem setOutcome_act (o : ReqOutcome) : PortAct fun i => { i with outcome := o } :=
  ⟨fun _ _ same => congrArg (fun k : PortIf => { k with outcome := o }) same, fun _ => rfl⟩

section Write

variable (s : State) (e : EntryIx) (v : Nat)

theorem reserveWritten_moved (changed : writtenAccount s e v ≠ s.account) :
    (reserveWritten s e v).figures ≠ (reserveStart s).figures := by
  intro same
  have reserves : (writtenAccount s e v).reserves = s.account.reserves := congrArg Figures.reserves same
  refine changed ?_
  show { s.account with reserves := (writtenAccount s e v).reserves } = s.account
  rw [reserves]

theorem reserveWritten_still :
    advancePlan (reserveStart s) (reserveWritten s e v) = reserveWritten s e v :=
  advancePlan_of_same rfl rfl rfl

theorem reserveWritten_written :
    AccountWritten s (writtenAccount s e v) (reserveWritten s e v) where
  cars := rfl
  queue := rfl
  plan := rfl
  shed := rfl
  store := rfl
  now := rfl
  account := rfl
  gate := by
    show (writtenGate s e v).state = _ ∧ (writtenGate s e v).stack = _
    unfold writtenGate
    split <;> exact ⟨rfl, rfl⟩

/-- A re-check is due when the total rises (R39, R92). -/
theorem reserveWritten_recheckDue : recheckDue (reserveStart s) (reserveWritten s e v) = true ↔
    s.rs < { s with account := writtenAccount s e v }.rs := by
  have total : (reserveWritten s e v).rs = { s with account := writtenAccount s e v }.rs := rfl
  have before : (reserveStart s).rs = s.rs := rfl
  have offer : (reserveWritten s e v).account.offer = (reserveStart s).account.offer := rfl
  have limit : (reserveWritten s e v).account.stepLimit = (reserveStart s).account.stepLimit := rfl
  simp [recheckDue, stepLowered, total, before, offer, limit]

end Write

/-! ## The statement -/

/-- The end of a RESERVE of an entry 0 to 7. -/
def reserveEnd (s : State) (e : EntryIx) (v : Nat) : State :=
  setOutcome .panel .accepted (closeEvent {} (reserveStart s) (reserveWritten s e v))

theorem exec_reserve_entry (h : ignores s .panel = false) {e : Byte} (entry : e.toNat < 8) (hi lo : Byte) :
    exec (.reserve (.opened [e, hi, lo])) s = .next (reserveEnd s ⟨e.toNat, entry⟩ (pairOf hi lo)) := by
  rw [exec_reserve h, takeReserve_written entry]
  rfl

theorem reserveStart_answered (s : State) (o : ReqOutcome) :
    setOutcome .panel o (reserveStart s) = panelAnswered o s := by
  unfold reserveStart panelAnswered panelLinkUp setOutcome
  simp only [State.updPort]
  congr 1
  simp [State.port, PortIf.opened, PortIf.answered, PortIf.carried]

theorem reserveEnd_only (s : State) (e : EntryIx) (v : Nat) :
    OnlyDecisions { panelAnswered .accepted s with account := writtenAccount s e v }
      (reserveEnd s e v) := by
  refine ((closeEvent_moves {} (reserveStart s) (reserveWritten s e v)).only.updPort
    (setOutcome_act .accepted) .panel).of_gate (g := writtenGate s e v) ?_
  rw [← reserveStart_answered]
  rfl

theorem reserveEnd_sheds (h : s.Sound) (e : EntryIx) (v : Nat) (changed : writtenAccount s e v ≠ s.account)
    (holding : (reserveEnd s e v).account.overcommit = .holding) :
    { s with account := writtenAccount s e v }.ShedMade (reserveEnd s e v) := by
  have written := reserveWritten_written s e v
  have lists : State.ShedLists { s with account := writtenAccount s e v } :=
    let known := State.ShedLists.of_sound h.consistent h.records
    ⟨known.orderOnce, known.service, known.stackOnce, known.running⟩
  exact (closeEvent_sheds (written.entriesSound h.consistent) (lists.of_same written.shedSame rfl)
    (reserveWritten_still s e v) (reserveWritten_moved s e v changed) written.shedSame rfl holding).updPort
      (setOutcome_act .accepted) .panel

theorem reserveEnd_selects (h : s.Consistent) (e : EntryIx) (v : Nat)
    (fell : { s with account := writtenAccount s e v }.rs < s.rs) :
    s.SelectionMade (reserveEnd s e v) := by
  have written := reserveWritten_written s e v
  have made : s.SelectionMade (closeEvent {} (reserveStart s) (reserveWritten s e v)) :=
    closeEvent_selects (written.entriesSound h) (.inr fell) written.away
  exact made.updPort (setOutcome_act .accepted) .panel

theorem reserveEnd_gate (s : State) (e : EntryIx) (v : Nat) :
    (v = 0 → s.gate.pendingClaim = some e → (reserveEnd s e v).gate.pendingClaim = none) ∧
    (s.gate.state = .panelStart → s.gate.pendingClaim = none → (reserveEnd s e v).gate = s.gate) := by
  have moves := closeEvent_moves {} (reserveStart s) (reserveWritten s e v)
  have ends : (reserveEnd s e v).gate =
    (closeEvent {} (reserveStart s) (reserveWritten s e v)).gate := rfl
  rw [ends]
  constructor
  · intro emptied claim
    refine Moves.pendingClaim_none moves ?_
    show (writtenGate s e v).pendingClaim = none
    rw [writtenGate, if_pos ⟨emptied, claim⟩]
  · intro shut free
    have kept : writtenGate s e v = s.gate :=
      if_neg fun cancels => by rw [free] at cancels; cases cancels.2
    refine (Moves.gate_of_shut moves ?_).trans kept
    show (writtenGate s e v).state ≠ _
    rw [kept, shut]
    decide

theorem reserveEnd_queue (s : State) (e : EntryIx) (v : Nat) :
    (reserveEnd s e v).queue.entries.Sublist s.queue.entries := by
  have moves := closeEvent_moves {} (reserveStart s) (reserveWritten s e v)
  have ends : (reserveEnd s e v).queue =
    (closeEvent {} (reserveStart s) (reserveWritten s e v)).queue := rfl
  have start : (reserveWritten s e v).queue = s.queue := rfl
  rw [ends, ← start]
  exact Moves.entries_sublist moves

/-- An entry above 7 is refused and nothing is changed. -/
theorem exec_reserve_range (h : ignores s .panel = false) (settled : s.Settled) {e : Byte}
    (above : 8 ≤ e.toNat) (hi lo : Byte) :
    exec (.reserve (.opened [e, hi, lo])) s = .next (panelAnswered .range s) := by
  have refused : takeReserve e (pairOf hi lo) (reserveStart s) = (reserveStart s, .range) := by
    have unnamed : entryIxOf e = none := dif_neg (by omega)
    rw [takeReserve, unnamed]
  have start : (reserveStart s).Settled := settled.of_same (.parts rfl rfl rfl rfl rfl) rfl
  rw [exec_reserve h, refused, closeEvent_self start, reserveStart_answered]

/-- Settles O34: a RESERVE is one event, of which each clause states a part. -/
theorem reserveWrites : Obligations.ReserveWrites := by
  unfold Obligations.ReserveWrites
  intro s e hi lo h
  refine ⟨fun entry => ?_, fun above settled => exec_reserve_range h settled above hi lo⟩
  obtain ⟨cancels, shut⟩ := reserveEnd_gate s ⟨e.toNat, entry⟩ (pairOf hi lo)
  have written := reserveWritten_written s ⟨e.toNat, entry⟩ (pairOf hi lo)
  have due := reserveWritten_recheckDue s ⟨e.toNat, entry⟩ (pairOf hi lo)
  refine ⟨_, exec_reserve_entry h entry hi lo, reserveEnd_only s ⟨e.toNat, entry⟩ (pairOf hi lo),
    fun consistent fell => reserveEnd_selects consistent ⟨e.toNat, entry⟩ (pairOf hi lo) fell,
    fun sound changed holding => reserveEnd_sheds sound ⟨e.toNat, entry⟩ (pairOf hi lo) changed holding,
    fun consistent settled => ⟨?_, fun raised => ?_, fun kept c waits => ?_⟩, cancels, shut⟩
  · exact reserveEnd_queue s ⟨e.toNat, entry⟩ (pairOf hi lo)
  · exact (written.rechecked consistent settled rfl (due.2 raised)).updPort (setOutcome_act .accepted) _
  · exact (written.keepsWaiting consistent settled rfl waits fun k => absurd (due.1 k) kept).updPort ..

end Sys2Proof.Machine
end

section
/-!
PROOFS. OFFER (R18, R19): the units of a field, the latch at its second unit, and what it does to the queue and the
selection (O32). The sixth unit completes the request, which may first bring the supply link back (R118).
-/

namespace Sys2Proof.Machine

variable {s t : State}

/-! ## A request that brings the supply link back -/

theorem GrantMove.base (m : GrantMove s t) : s.lb ≤ t.lb ∧ t.lr ≤ s.lr := by
  suffices each : ∀ d, (s.car d).baseCharge ≤ (t.car d).baseCharge ∧
      (t.trip d).credit ≤ (s.trip d).credit from
    ⟨sumCars_mono fun d => (each d).1, sumCars_mono fun d => (each d).2⟩
  intro d
  cases m with
  | select c =>
    rw [selectCar_trip, selectCar_car]
    refine ⟨?_, Nat.le_refl _⟩
    split
    · rename_i same; rw [same]; exact (CarRecord.charge_power _ _).2
    · exact Nat.le_refl _
  | carGrant c =>
    by_cases same : d = c
    · rw [State.trip, carGrant_car, if_pos same, same]
      exact ⟨(s.car c).baseCharge_le_granted, Nat.zero_le _⟩
    · rw [carGrant_trip_ne s same, carGrant_car, if_neg same]
      exact ⟨Nat.le_refl _, Nat.le_refl _⟩
  | panelGrant e => exact ⟨Nat.le_refl _, Nat.le_refl _⟩
  | draw n => exact ⟨Nat.le_refl _, Nat.le_refl _⟩

/-- What an event that changes no figure of a settled state leaves of the account: it reads the same while an
overcommit is held, and else a grant may have raised the base load. -/
structure Heard (s w : State) : Prop where
  settled : w.Settled
  store : w.store = s.store
  limits : w.account.limits = s.account.limits
  evaluates : w.plan.phase.evaluates = s.plan.phase.evaluates
  account : SameAccount s w ∨ w.account.overcommit = .none ∧ s.lb ≤ w.lb ∧ w.lr ≤ s.lr

theorem Heard.of_same (settled : t.Settled) (same : SameAccount s t) (store : t.store = s.store) :
    Heard s t := ⟨settled, store, same.limits, same.evaluates, .inl same⟩

theorem Heard.grantMoves {w : State} (h : Heard s t) (same : SameAccount s t) (m : GrantMoves t w) :
    Heard s w := by
  have only := (GrantMoves.moves m).only
  obtain ⟨phase, overcommit, -⟩ := GrantMoves.plan m
  refine ⟨m.settled h.settled, only.store.trans h.store, only.limits.trans h.limits,
    (congrArg Phase.evaluates phase).trans h.evaluates, ?_⟩
  rcases t.account.overcommit.eq_none_or with none | holding
  · refine .inr ⟨overcommit.trans none, ?_⟩
    rw [← same.lb, ← same.lr]
    clear overcommit phase only
    induction m with
    | refl => exact ⟨Nat.le_refl _, Nat.le_refl _⟩
    | tail _ last ih =>
      obtain ⟨base, credit⟩ := last.base
      exact ⟨ih.1.trans base, credit.trans ih.2⟩
  · exact .inl (same.trans (GrantMoves.shedSame m holding).account)

/-- A condition under a new limit W after such an event was one before it: grants pass no other limit, and
raise the base load. -/
theorem Heard.anyCondition {w : State} (h : Heard s w) {a b : Account} (limits : a.limits = b.limits)
    (kept : b.offer = w.account.offer ∧ b.reserves = w.account.reserves)
    (some : { w with account := b }.anyCondition = true) :
    { s with account := a }.anyCondition = true := by
  rcases h.account with same | ⟨none, base, credit⟩
  · have same : SameAccount { s with account := a } { w with account := b } :=
      ⟨same.active, same.site, same.evaluates, limits.symm, same.bills⟩
    rw [← same.anyCondition]; exact some
  · by_contra no
    rw [Bool.not_eq_true, State.anyCondition_eq_false_iff] at no
    have quiet : { w with account := b }.anyCondition = false := by
      rw [State.anyCondition_eq_false_iff]
      intro on
      have within := (State.anyCondition_eq_false_iff w).1 (h.settled.noCondition none) on
      have reverse := (no (h.evaluates.symm.trans on)).reverse
      have absorb : a.absorb = b.absorb := congrArg (fun l => l.2.2.1) limits
      refine ⟨?_, within.feeders, ?_⟩
      · have reserves : { w with account := b }.rs = w.rs := by
          rw [State.rs_eq, State.rs_eq, kept.2]
        have headroom := within.headroom
        unfold State.headroom at headroom ⊢
        rw [reserves, kept.1]
        exact headroom
      · have lb : { w with account := b }.lb = w.lb := rfl
        have lr : { w with account := b }.lr = w.lr := rfl
        have lbs : { s with account := a }.lb = s.lb := rfl
        have lrs : { s with account := a }.lr = s.lr := rfl
        have before : -(a.absorb : Int) ≤ (s.lb : Int) - s.lr := reverse
        show -(b.absorb : Int) ≤ (w.lb : Int) - w.lr
        omega
    rw [quiet] at some
    cases some

/-- An event that changes no figure of a settled state makes no re-check and no pass. -/
theorem closeEvent_of_figures {s0 x : State} (settled : x.Settled) (sound : x.EntriesSound)
    (account : x.account = s0.account) (figures : x.figures = s0.figures) :
    closeEvent {} s0 x = selectAndGrant {} s0 (advancePlan s0 x) := by
  have same := advancePlan_sameAccount s0 sound
  have control := advancePlan_control x s0
  have called : (advancePlan s0 x).Settled := settled.of_same same control
  have held : (advancePlan s0 x).account = s0.account := (State.control_iff.1 control).1.trans account
  have reserves : x.rs = s0.rs := by rw [State.rs_eq, State.rs_eq, account]
  have noRecheck : recheckDue s0 (advancePlan s0 x) = false := by
    rw [recheckDue_congr same]
    simp [recheckDue, stepLowered, account, reserves]
  have noPass : shedIfDue {} s0 (advancePlan s0 x) = advancePlan s0 x := by
    refine if_neg fun due => ?_
    rcases due.2 with pass | moved | began
    · cases pass
    · exact moved (same.figures.trans figures)
    · exact began (held ▸ due.1)
  rw [closeEvent_eq, evaluated, called.evaluate_eq_self, recheckIfDue, noRecheck, if_neg (by decide), noPass]

/-- What a supply request does before it acts, for the account and for an entry that waits (R118, R146). -/
theorem supplyLinkUp_heard (h : s.Consistent) (settled : s.Settled) {x : State}
    (made : x = { s with ports := x.ports }) :
    Heard s (supplyLinkUp x) ∧ (supplyLinkUp x).EntriesSound ∧
      (supplyLinkUp x).queue.entries.Sublist s.queue.entries ∧
      ∀ (c : CarIx) (cond : Prop), (s.trip c).state = .waiting →
        EntryStands (s.trip c).verdict (s.gate.state = .opened) cond c (supplyLinkUp x) := by
  have entries : s.EntriesSound := .of_consistent h
  obtain ⟨y, up⟩ : ∃ y, y = { x with supplyLink := ⟨.up, x.startTimer (tLink x.store.active)⟩ } :=
    ⟨_, rfl⟩
  have same : SameAccount s y := by rw [up, made]; exact .parts rfl rfl rfl rfl rfl
  have ySettled : y.Settled := settled.of_same same (by rw [up, made]; rfl)
  have sound : y.EntriesSound :=
    entries.of_eq (fun c => by rw [up, made]; rfl) (by rw [up, made]) (by rw [up, made])
  have stands (c : CarIx) (cond : Prop) (waits : (s.trip c).state = .waiting) :
      EntryStands (s.trip c).verdict (s.gate.state = .opened) cond c y :=
    (EntryStands.of_waiting h waits cond).of_same (by rw [up, made]; rfl) (by rw [up, made])
      (by rw [up, made]; exact id)
  have store : y.store = s.store := by rw [up, made]
  have queue : y.queue = s.queue := by rw [up, made]
  have start : Heard s y := .of_same ySettled same store
  have cases : supplyLinkUp x = y ∨ supplyLinkUp x = closeEvent {} x y := by
    unfold supplyLinkUp
    dsimp only
    rw [← up]
    split
    · exact .inl rfl
    · exact .inr rfl
  rcases cases with e | e
  · rw [e]
    exact ⟨start, sound, by rw [queue], stands⟩
  · have figures : y.figures = x.figures := by rw [up]; rfl
    have moves := closeEvent_moves {} x y
    have event := closeEvent_of_figures ySettled sound (by rw [up]) figures
    rw [← e] at moves event
    have called := advancePlan_sameAccount x sound
    have grants := selectAndGrant_grantMoves {} x (advancePlan x y)
    rw [← event] at grants
    have calledStore := (advancePlan_moves x y).only.store
    have advanced : Heard s (advancePlan x y) :=
      .of_same (ySettled.of_same called (advancePlan_control y x)) (same.trans called)
        (calledStore.trans store)
    refine ⟨advanced.grantMoves (same.trans called) grants, Moves.entriesSound moves sound,
      by rw [← queue]; exact Moves.entries_sublist moves, fun c cond waits => ?_⟩
    exact ((stands c cond waits).plan (advancePlan_kept x y)).grantMoves grants


/-! ## The units of an OFFER -/

theorem setRequest_act (q : Option InProgress) : PortAct fun i => { i with request := q } :=
  ⟨fun _ _ same => congrArg (fun k : PortIf => { k with request := q }) same, fun _ => rfl⟩

theorem carried_act (data : Byte) : PortAct (.carried data) :=
  ⟨fun _ _ same => congrArg (PortIf.carried data) same, fun _ => rfl⟩

theorem OnlyDecisions.ignores (h : OnlyDecisions s t) (p : Port) : ignores t p = ignores s p := by
  have awaits : (t.port p).awaitSelect = (s.port p).awaitSelect := by
    show (t.port p).framing.awaitSelect = (s.port p).framing.awaitSelect
    rw [h.framing p]
  cases p <;> simp only [Machine.ignores, State.configured, h.rstLow, h.store, awaits]

theorem OnlyDecisions.withAccount (h : OnlyDecisions s t) {a b : Account} (limits : b.limits = a.limits) :
    OnlyDecisions { s with account := a } { t with account := b } :=
  ⟨h.store, h.supplyLink, h.panelLink, limits, h.mode, h.rstLow, h.now, h.pending, h.cars, h.figures,
    h.framing, h.notices⟩

theorem OnlyDecisions.withSupplyLink (h : OnlyDecisions s t) {l m : LinkSup} (link : m = l) :
    OnlyDecisions { s with supplyLink := l } { t with supplyLink := m } :=
  ⟨h.store, link, h.panelLink, h.limits, h.mode, h.rstLow, h.now, h.pending, h.cars, h.figures,
    h.framing, h.notices⟩

/-- The field that an OFFER latches after these many units of other fields (R18). -/
def latchField (n : Nat) (v : Nat) (a : Account) : Account :=
  match n with
  | 0 => { a with offer := min 4095 v }
  | 2 => { a with stepLimit := min 4095 v }
  | _ => { a with absorb := min 1023 v }

/-- An OFFER between two fields has taken none, one or two of them. -/
def BetweenFields (args : List Byte) : Prop := args.length = 0 ∨ args.length = 2 ∨ args.length = 4

theorem BetweenFields.cases {args : List Byte} (h : BetweenFields args) :
    args = [] ∨ (∃ a b, args = [a, b]) ∨ ∃ a b c d, args = [a, b, c, d] := by
  rcases h with h | h | h
  · exact .inl (List.length_eq_zero_iff.1 h)
  · exact .inr (.inl (List.length_eq_two.1 h))
  · match args, h with
    | [a, b, c, d], _ => exact .inr (.inr ⟨a, b, c, d, rfl⟩)

/-- The first unit of a field latches nothing. -/
theorem latchOffer_first {args : List Byte} (h : BetweenFields args) (hi : Byte) (a : Account) :
    latchOffer (args ++ [hi]) a = a := by
  rcases h.cases with rfl | ⟨_, _, rfl⟩ | ⟨_, _, _, _, rfl⟩ <;> rfl

theorem latchOffer_second {args : List Byte} (h : BetweenFields args) (hi lo : Byte) (a : Account) :
    latchOffer (args ++ [hi] ++ [lo]) a = latchField args.length (pairOf hi lo) a := by
  rcases h.cases with rfl | ⟨_, _, rfl⟩ | ⟨_, _, _, _, rfl⟩ <;> rfl

theorem latchField_limits (n v : Nat) {a b : Account} (limits : b.limits = a.limits) :
    (latchField n v b).limits = (latchField n v a).limits := by
  simp only [Account.limits, Prod.mk.injEq] at limits
  obtain ⟨offer, step, absorb, reserves⟩ := limits
  unfold latchField
  split <;> simp [Account.limits, offer, step, absorb, reserves]

theorem latchField_overcommit (n v : Nat) (a : Account) :
    (latchField n v a).overcommit = a.overcommit := by
  unfold latchField
  split <;> rfl

theorem shiftUnit_offer {l : List Byte} (h : ignores s .supply = false)
    (req : (s.port .supply).request = some ⟨.offer, l⟩) (u : Byte) :
    shiftUnit .supply true u s = offerUnit ⟨.offer, l ++ [u]⟩ (s.updPort .supply (.carried 0xFF)) :=
  (shiftUnit_handed h req u).trans rfl

/-- The supply port when the first unit of a field has been taken and the second has come. -/
def offerAsked (args : List Byte) (hi : Byte) (s : State) : State :=
  (s.updPort .supply (.taken (some ⟨.offer, args ++ [hi]⟩))).updPort .supply (.carried 0xFF)

/-- The state in which the second unit of a field is handed on: the first has closed an event of its own. -/
def offerHalf (args : List Byte) (hi : Byte) (s : State) : State :=
  let t := s.updPort .supply (.carried 0xFF)
  (setRequest .supply (some ⟨.offer, args ++ [hi]⟩) (closeEvent {} t t)).updPort .supply (.carried 0xFF)

theorem offerHalf_only (args : List Byte) (hi : Byte) (s : State) :
    OnlyDecisions (offerAsked args hi s) (offerHalf args hi s) := by
  have event := (closeEvent_moves {} (s.updPort .supply (.carried 0xFF))
    (s.updPort .supply (.carried 0xFF))).only
  have asked := (event.updPort (setRequest_act (some ⟨.offer, args ++ [hi]⟩)) .supply).updPort
    (carried_act 0xFF) .supply
  rw [State.updPort_updPort s] at asked
  exact asked

/-- In a settled state the first unit of a field changes nothing else. -/
theorem offerHalf_settled (args : List Byte) (hi : Byte) (settled : s.Settled) :
    offerHalf args hi s = offerAsked args hi s := by
  unfold offerHalf offerAsked
  dsimp only
  rw [closeEvent_self settled.updPort, setRequest, State.updPort_updPort s]
  rfl

/-- Both units of a field, handed on one after the other (R19). -/
theorem exec_offerFieldLatch {args : List Byte} (h : ignores s .supply = false)
    (req : (s.port .supply).request = some ⟨.offer, args⟩) (between : BetweenFields args)
    (hi lo : Byte) : exec (.offerFieldLatch [hi, lo]) s =
      .next (offerUnit ⟨.offer, args ++ [hi] ++ [lo]⟩ (offerHalf args hi s)) := by
  show Host.Outcome.next (shiftArgs .supply [hi, lo] s) = _
  simp only [shiftArgs, List.foldl_cons, List.foldl_nil]
  rw [shiftUnit_offer h req]
  have few : (args ++ [hi]).length < 6 := by
    rcases between with n | n | n <;> simp [n]
  have first (x : State) : offerUnit ⟨.offer, args ++ [hi]⟩ x =
      setRequest .supply (some ⟨.offer, args ++ [hi]⟩) (closeEvent {} x x) := by
    rw [offerUnit, if_pos few, offerStep, latchOffer_first between]
  have only := (closeEvent_moves {} (s.updPort .supply (.carried 0xFF))
    (s.updPort .supply (.carried 0xFF))).only.ignores .supply
  have taken : ignores (setRequest .supply (some ⟨.offer, args ++ [hi]⟩)
      (closeEvent {} (s.updPort .supply (.carried 0xFF)) (s.updPort .supply (.carried 0xFF)))) .supply =
      false := by
    refine ((ignores_updPort _ _ _ ?_).trans only).trans ((ignores_updPort _ _ _ ?_).trans h)
    · rfl
    · rfl
  have inProgress (x : State) : ((setRequest .supply (some ⟨.offer, args ++ [hi]⟩) x).port
      .supply).request = some ⟨.offer, args ++ [hi]⟩ := by
    rw [setRequest, State.updPort_port_same]
  rw [first, shiftUnit_offer taken (inProgress _)]
  rfl

/-! ## The first two fields -/

/-- The latch of a field as its own event's change. -/
def offerLatched (n v : Nat) (u : State) : State := { u with account := latchField n v u.account }

/-- The end of the field of O or of U: the request goes on. -/
def offerGoesOn (args : List Byte) (hi lo : Byte) (s : State) : State :=
  setRequest .supply (some ⟨.offer, args ++ [hi, lo]⟩) (closeEvent {} (offerHalf args hi s)
    (offerLatched args.length (pairOf hi lo) (offerHalf args hi s)))

theorem offerUnit_goesOn {args : List Byte} (between : BetweenFields args) (few : args.length < 4)
    (hi lo : Byte) :
    offerUnit ⟨.offer, args ++ [hi] ++ [lo]⟩ (offerHalf args hi s) = offerGoesOn args hi lo s := by
  have more : (args ++ [hi] ++ [lo]).length < 6 := by simp; omega
  rw [offerUnit, if_pos more, offerStep, latchOffer_second between]
  simp only [List.append_assoc, List.cons_append, List.nil_append]
  rfl

theorem offerHalf_latched (args : List Byte) (hi : Byte) (n v : Nat) (s : State) :
    OnlyDecisions { offerAsked args hi s with account := latchField n v s.account }
      (offerLatched n v (offerHalf args hi s)) :=
  have half := offerHalf_only args hi s
  half.withAccount (latchField_limits n v half.limits)

theorem offerAsked_taken (args : List Byte) (hi : Byte) (a : Account) (q : InProgress) (s : State) :
    { offerAsked args hi s with account := a }.updPort .supply (fun i => { i with request := some q }) =
      { s with account := a }.updPort .supply (.taken (some q)) := by
  have commutes : { offerAsked args hi s with account := a } =
      ({ s with account := a }.updPort .supply (.taken (some ⟨.offer, args ++ [hi]⟩))).updPort .supply
        (.carried 0xFF) := rfl
  rw [commutes, State.updPort_updPort, State.updPort_updPort]
  rfl

theorem offerGoesOn_only (args : List Byte) (hi lo : Byte) (s : State) :
    OnlyDecisions ({ s with account := latchField args.length (pairOf hi lo) s.account }.updPort .supply
      (.taken (some ⟨.offer, args ++ [hi, lo]⟩))) (offerGoesOn args hi lo s) := by
  have event := closeEvent_moves {} (offerHalf args hi s)
    (offerLatched args.length (pairOf hi lo) (offerHalf args hi s))
  rw [← offerAsked_taken args hi]
  exact ((offerHalf_latched args hi args.length (pairOf hi lo) s).trans event.only).updPort
    (setRequest_act (some ⟨.offer, args ++ [hi, lo]⟩)) .supply

/-- In a settled state a field's latch is the account's one change. -/
theorem offerLatched_written (args : List Byte) (hi lo : Byte) (s : State) :
    AccountWritten s (latchField args.length (pairOf hi lo) s.account)
      (offerLatched args.length (pairOf hi lo) (offerAsked args hi s)) where
  cars := rfl
  queue := rfl
  plan := rfl
  shed := rfl
  store := rfl
  now := rfl
  account := rfl
  gate := ⟨rfl, rfl⟩

/-- O or U is lowered (R39; a U of 0 is no limit, log 20). -/
def Lowered (n : Nat) (a b : Account) : Prop :=
  n = 0 ∧ b.offer < a.offer ∨
    n = 2 ∧ b.stepLimit ≠ 0 ∧ (a.stepLimit = 0 ∨ b.stepLimit < a.stepLimit)

/-- A re-check is due when O or U is lowered (R39, R92). -/
theorem offerLatched_recheckDue {n : Nat} (field : n = 0 ∨ n = 2 ∨ n = 4) (v : Nat) (u : State) :
    recheckDue u (offerLatched n v u) = true ↔ Lowered n u.account (latchField n v u.account) := by
  have total : (offerLatched n v u).rs = u.rs := by
    rw [State.rs_eq, State.rs_eq]
    rcases field with rfl | rfl | rfl <;> rfl
  unfold recheckDue Lowered stepLowered
  rw [total]
  rcases field with rfl | rfl | rfl <;> simp [offerLatched, latchField]

/-- What the latch of O or of U does to the queue, and a rise of O to the selection (R92, R112). -/
theorem offerGoesOn_made {args : List Byte} (between : BetweenFields args) (hi lo : Byte)
    (h : s.Consistent) (settled : s.Settled) :
    let a := latchField args.length (pairOf hi lo) s.account
    (args.length = 0 → s.account.offer < a.offer → s.SelectionMade (offerGoesOn args hi lo s)) ∧
    (offerGoesOn args hi lo s).queue.entries.Sublist s.queue.entries ∧
    (Lowered args.length s.account a →
      s.Rechecked { s with account := a } (offerGoesOn args hi lo s)) ∧
    (¬ Lowered args.length s.account a → ∀ c, (s.trip c).state = .waiting →
      s.KeepsWaiting { s with account := a } (offerGoesOn args hi lo s) c) := by
  intro a
  have written := offerLatched_written args hi lo s
  have due := offerLatched_recheckDue between (pairOf hi lo) (offerAsked args hi s)
  have held := latchField_overcommit args.length (pairOf hi lo) s.account
  have act := setRequest_act (some ⟨.offer, args ++ [hi, lo]⟩)
  rw [offerGoesOn, offerHalf_settled args hi settled, setRequest]
  refine ⟨fun _ rise => ?_, ?_, fun lowered => ?_, fun kept c waits => ?_⟩
  · have made : s.SelectionMade (closeEvent {} (offerAsked args hi s)
        (offerLatched args.length (pairOf hi lo) (offerAsked args hi s))) :=
      closeEvent_selects (written.entriesSound h) (.inl rise) written.away
    exact made.updPort act .supply
  · have moves := closeEvent_moves {} (offerAsked args hi s)
      (offerLatched args.length (pairOf hi lo) (offerAsked args hi s))
    rw [State.updPort_queue, ← written.queue]
    exact Moves.entries_sublist moves
  · exact (written.rechecked h settled held (due.2 lowered)).updPort act .supply
  · exact (written.keepsWaiting h settled held waits fun k => absurd (due.1 k) kept).updPort ..

/-! ## The last field -/

/-- The state on which the last field of an OFFER is latched. -/
def offerHeard (args : List Byte) (hi : Byte) (s : State) : State :=
  supplyLinkUp (setRequest .supply none (offerHalf args hi s))

/-- The end of the field of W: the request is complete. -/
def offerEnds (args : List Byte) (hi lo : Byte) (s : State) : State :=
  setOutcome .supply .accepted (closeEvent {} (offerHeard args hi s)
    (offerLatched args.length (pairOf hi lo) (offerHeard args hi s)))

theorem offerUnit_ends {args : List Byte} (four : args.length = 4) (hi lo : Byte) :
    offerUnit ⟨.offer, args ++ [hi] ++ [lo]⟩ (offerHalf args hi s) = offerEnds args hi lo s := by
  have whole : ¬ (args ++ [hi] ++ [lo]).length < 6 := by simp; omega
  have step (x : State) : offerStep (args ++ [hi] ++ [lo]) x =
      closeEvent {} x (offerLatched args.length (pairOf hi lo) x) := by
    rw [offerStep, latchOffer_second (.inr (.inr four))]
    rfl
  have done (x : State) : offerUnit ⟨.offer, args ++ [hi] ++ [lo]⟩ x =
      setOutcome .supply .accepted
        (offerStep (args ++ [hi] ++ [lo]) (supplyLinkUp (setRequest .supply none x))) :=
    if_neg whole
  rw [done, step, offerEnds, offerHeard]

theorem supplyLinkUp_only (s : State) : OnlyDecisions s.supplyHeard (supplyLinkUp s) := by
  have made : supplyLinkUp s = s.supplyHeard ∨ supplyLinkUp s = closeEvent {} s s.supplyHeard := by
    unfold supplyLinkUp State.supplyHeard
    dsimp only
    split
    · exact .inl rfl
    · exact .inr rfl
  rcases made with e | e
  · rw [e]; exact .refl _
  · rw [e]; exact (closeEvent_moves {} s s.supplyHeard).only

theorem OnlyDecisions.supplyHeard (h : OnlyDecisions s t) :
    OnlyDecisions s.supplyHeard t.supplyHeard := by
  refine h.withSupplyLink ?_
  rw [State.startTimer, State.startTimer, h.now, h.store]

theorem offerHeard_only (args : List Byte) (hi : Byte) (s : State) :
    OnlyDecisions (setRequest .supply none (offerAsked args hi s)).supplyHeard (offerHeard args hi s) :=
  have ready : OnlyDecisions (setRequest .supply none (offerAsked args hi s))
      (setRequest .supply none (offerHalf args hi s)) :=
    (offerHalf_only args hi s).updPort (setRequest_act none) .supply
  ready.supplyHeard.trans (supplyLinkUp_only _)

theorem offerAsked_answered (args : List Byte) (hi : Byte) (a : Account) (s : State) :
    { (setRequest .supply none (offerAsked args hi s)).supplyHeard with account := a }.updPort .supply
      (fun i => { i with outcome := .accepted }) =
    { s.supplyHeard with account := a }.updPort .supply
      (fun i => { i.taken none with outcome := .accepted }) := by
  have commutes : { (setRequest .supply none (offerAsked args hi s)).supplyHeard with account := a } =
      (({ s.supplyHeard with account := a }.updPort .supply
        (.taken (some ⟨.offer, args ++ [hi]⟩))).updPort .supply (.carried 0xFF)).updPort .supply
          (fun i => { i with request := none }) := rfl
  rw [commutes, State.updPort_updPort, State.updPort_updPort, State.updPort_updPort]
  rfl

theorem offerEnds_only (args : List Byte) (hi lo : Byte) (s : State) :
    OnlyDecisions ({ s.supplyHeard with account := latchField args.length (pairOf hi lo) s.account }.updPort
      .supply (fun i => { i.taken none with outcome := .accepted })) (offerEnds args hi lo s) := by
  have heard := offerHeard_only args hi s
  have latched : OnlyDecisions
      { (setRequest .supply none (offerAsked args hi s)).supplyHeard with
        account := latchField args.length (pairOf hi lo) s.account }
      (offerLatched args.length (pairOf hi lo) (offerHeard args hi s)) :=
    heard.withAccount (latchField_limits args.length (pairOf hi lo) heard.limits)
  have event := closeEvent_moves {} (offerHeard args hi s)
    (offerLatched args.length (pairOf hi lo) (offerHeard args hi s))
  rw [← offerAsked_answered args hi]
  exact (latched.trans event.only).updPort (setOutcome_act .accepted) .supply

theorem offerHeard_heard (args : List Byte) (hi : Byte) (h : s.Consistent) (settled : s.Settled) :
    Heard s (offerHeard args hi s) ∧ (offerHeard args hi s).EntriesSound ∧
      (offerHeard args hi s).queue.entries.Sublist s.queue.entries ∧
      ∀ (c : CarIx) (cond : Prop), (s.trip c).state = .waiting →
        EntryStands (s.trip c).verdict (s.gate.state = .opened) cond c (offerHeard args hi s) := by
  unfold offerHeard
  refine supplyLinkUp_heard h settled ?_
  rw [offerHalf_settled args hi settled]
  rfl

theorem offerEnds_queue {args : List Byte} (hi lo : Byte) (h : s.Consistent) (settled : s.Settled) :
    (offerEnds args hi lo s).queue.entries.Sublist s.queue.entries := by
  obtain ⟨-, -, queue, -⟩ := offerHeard_heard args hi h settled
  have moves := closeEvent_moves {} (offerHeard args hi s)
    (offerLatched args.length (pairOf hi lo) (offerHeard args hi s))
  rw [offerEnds, setOutcome, State.updPort_queue]
  exact (Moves.entries_sublist moves).trans queue

theorem offerLatched_ready {u : State} (n v : Nat) (settled : u.Settled) : (offerLatched n v u).Ready := by
  have held := latchField_overcommit n v u.account
  exact ⟨fun none => settled.controlled.ready.idle (held.symm.trans none),
    fun holding => settled.controlled.ready.active (held.symm.trans holding)⟩

/-- What the latch of W does to an entry: it waits on, or is granted, or goes with its car (R92). -/
theorem offerEnds_waits {args : List Byte} (four : args.length = 4) (hi lo : Byte) (h : s.Consistent)
    (settled : s.Settled) {c : CarIx} (waits : (s.trip c).state = .waiting) :
    s.KeepsWaiting { s with account := latchField args.length (pairOf hi lo) s.account }
      (offerEnds args hi lo s) c := by
  obtain ⟨heard, sound, -, stands⟩ := offerHeard_heard args hi h settled
  obtain ⟨w, made⟩ : ∃ w, w = offerHeard args hi s := ⟨_, rfl⟩
  rw [offerEnds, ← made]
  rw [← made] at heard sound stands
  rw [four]
  have noRecheck : ¬ recheckDue w (offerLatched 4 (pairOf hi lo) w) = true := by
    rw [offerLatched_recheckDue (.inr (.inr rfl))]
    rintro (⟨n, -⟩ | ⟨n, -⟩) <;> cases n
  have latchedSound : (offerLatched 4 (pairOf hi lo) w).EntriesSound :=
    sound.of_eq (fun _ => rfl) rfl rfl
  have start (cond : Prop) : EntryStands (s.trip c).verdict (s.gate.state = .opened) cond c
      (offerLatched 4 (pairOf hi lo) w) :=
    (stands c cond waits).of_same rfl Iff.rfl id
  have limits := latchField_limits 4 (pairOf hi lo) heard.limits
  have stood := closeEvent_stands (k := {}) (s0 := w) (offerLatched_ready 4 (pairOf hi lo) heard.settled)
    latchedSound (start _) (fun due => absurd due noRecheck)
    fun held => heard.anyCondition limits.symm ⟨rfl, rfl⟩ held
  exact (EntryStands.keepsWaiting stood).updPort ..

/-! ## The statement -/

/-- Settles O32: a field of O or U is one event, that of W completes the request. -/
theorem offerLatches : Obligations.OfferLatches := by
  unfold Obligations.OfferLatches
  refine ⟨fun s h => ?_, fun s args hi lo h req between => ?_⟩
  · show Host.Outcome.next (shiftOpcode .supply Request.offer.code s) = _
    rw [shiftOpcode_opens h (by decide) (by decide) (by decide) (by decide)]
  · have taken := exec_offerFieldLatch h req between hi lo
    by_cases last : args.length = 4
    · rw [offerUnit_ends last] at taken
      refine ⟨_, taken, fun few => by omega, fun _ => offerEnds_only args hi lo s,
        fun _ _ none => by omega, fun consistent settled => ?_⟩
      exact ⟨offerEnds_queue hi lo consistent settled, fun lowered => by omega,
        fun _ c waits => offerEnds_waits last hi lo consistent settled waits⟩
    · have few : args.length < 4 := by rcases between with n | n | n <;> omega
      rw [offerUnit_goesOn between few] at taken
      refine ⟨_, taken, fun _ => offerGoesOn_only args hi lo s, fun four => absurd four last,
        fun consistent settled none rise => ?_, fun consistent settled => ?_⟩
      · exact (offerGoesOn_made between hi lo consistent settled).1 none rise
      · exact (offerGoesOn_made between hi lo consistent settled).2

end Sys2Proof.Machine
end

section
/-!
PROOFS. The units of a car port's requests, and PROFILE: its opcode unit (R44, O23) and the latch of each of its
fields (R45, O24).
-/

namespace Sys2Proof.Machine

variable {s : State} {c : CarIx}

/-! ## Requests of a car port -/

theorem carLinkUp_updPort (c : CarIx) (s : State) (p : Port) (f : PortIf → PortIf) :
    carLinkUp c (s.updPort p f) = (carLinkUp c s).updPort p f := rfl

theorem Role.refusesProfile_iff (r : Role) :
    r.refusesProfile = true ↔ r = .recall ∨ r = .service ∨ r = .lost := by
  cases r <;> simp [Role.refusesProfile]

theorem Role.refusesProfile_eq_false {r : Role} (notRecall : r ≠ .recall) (notService : r ≠ .service)
    (notLost : r ≠ .lost) : r.refusesProfile = false :=
  Bool.eq_false_iff.2 fun refuses => by
    rcases (Role.refusesProfile_iff r).1 refuses with e | e | e
    · exact notRecall e
    · exact notService e
    · exact notLost e

/-- A request that came whole on a car port and does nothing but answer. -/
theorem complete_endPrevious (c : CarIx) (o : ReqOutcome) (s : State) :
    complete (.car c) (fun t => (t, o))
      (endPrevious (.car c) (s.updPort (.car c) fun i => i.carried 0xFF)) = carAnswered c o s := by
  simp only [complete, linkUp, setRequest, setOutcome, endPrevious, State.updPort_updPort,
    carLinkUp_updPort]
  rfl

/-! ## The opcode unit -/

theorem opcodeUnit_profile (c : CarIx) (t : State) : opcodeUnit (.car c) Request.profile.code t =
    if (t.role c).refusesProfile = true then
      complete (.car c) (fun u => (u, .notPermitted)) (endPrevious (.car c) t)
    else setRequest (.car c) (some ⟨.profile, []⟩) (endPrevious (.car c) t) := by
  have named : Request.ofCode (.car c) Request.profile.code = some .profile := by
    simp [Request.ofCode, requestsOf, commonRequests, carRequests, Request.code]
  have role : profileRefused (.car c) (endPrevious (.car c) t) = (t.role c).refusesProfile := rfl
  rw [opcodeUnit, named]
  simp only [startRequest, Request.isRead, role, true_and]
  rfl

/-- Settles O23: the opcode unit looks at the car's role alone (R44). -/
theorem profileOpens : Obligations.ProfileOpens := by
  intro s c h
  have opcode : exec (.profile c) s = .next (opcodeUnit (.car c) Request.profile.code
      (s.updPort (.car c) fun i => i.carried 0xFF)) := by
    show Host.Outcome.next (shiftUnit (.car c) false Request.profile.code s) = _
    rw [shiftUnit_eq h]
    rfl
  have role : (s.updPort (.car c) fun i => i.carried 0xFF).role c = s.role c := rfl
  rw [opcode, opcodeUnit_profile, role]
  refine ⟨fun refused => ?_, fun notRecall notService notLost => ?_⟩
  · rw [if_pos ((Role.refusesProfile_iff _).2 refused), complete_endPrevious]
  · rw [Role.refusesProfile_eq_false notRecall notService notLost, if_neg (by decide), setRequest,
      endPrevious, State.updPort_updPort, State.updPort_updPort]
    rfl

/-! ## The units of the fields -/

/-- The latch of the field that ends with the last of these units (R45). -/
def latchCar (c : CarIx) (args : List Byte) (t : State) : State :=
  t.updCar c fun r => { r with profile := latchProfile args r.profile }

theorem shiftUnit_profile (h : ignores s (.car c) = false) {args : List Byte}
    (req : (s.port (.car c)).request = some ⟨.profile, args⟩) (u : Byte) :
    shiftUnit (.car c) true u s =
      profileUnit c ⟨.profile, args ++ [u]⟩ (s.updPort (.car c) (.carried 0xFF)) :=
  (shiftUnit_handed h req u).trans rfl

/-- After the first unit of Pr nothing latches. -/
theorem shiftUnit_profile_first (h : ignores s (.car c) = false)
    (req : (s.port (.car c)).request = some ⟨.profile, []⟩) (u : Byte) :
    shiftUnit (.car c) true u s = s.updPort (.car c) (.taken (some ⟨.profile, [u]⟩)) := by
  rw [shiftUnit_profile h req, List.nil_append, profileUnit,
    if_pos (show [u].length < 2 from Nat.one_lt_two), setRequest, State.updPort_updPort]
  rfl

/-- The last unit of a field, in a role that refuses PROFILE (R45). -/
theorem shiftUnit_profile_refused (h : ignores s (.car c) = false) {args : List Byte}
    (req : (s.port (.car c)).request = some ⟨.profile, args⟩) (later : 1 ≤ args.length)
    (refused : (s.role c).refusesProfile = true) (u : Byte) :
    shiftUnit (.car c) true u s = (carLinkUp c s).updPort (.car c)
      (fun i => { i.taken none with outcome := .notPermitted }) := by
  have role : (s.updPort (.car c) (.carried 0xFF)).role c = s.role c := rfl
  rw [shiftUnit_profile h req, profileUnit,
    if_neg (show ¬ (args ++ [u]).length < 2 by
      rw [List.length_append, List.length_singleton]; omega), role, if_pos refused]
  simp only [complete, linkUp, setRequest, setOutcome, State.updPort_updPort, carLinkUp_updPort]
  rfl

/-- The last unit of a field but the eighth latches it, and the request goes on (R45). -/
theorem shiftUnit_profile_goesOn (h : ignores s (.car c) = false) {args : List Byte}
    (req : (s.port (.car c)).request = some ⟨.profile, args⟩) (later : 1 ≤ args.length)
    (few : args.length < 7) (taken : (s.role c).refusesProfile = false) (u : Byte) :
    shiftUnit (.car c) true u s = (latchCar c (args ++ [u]) s).updPort (.car c)
      (.taken (some ⟨.profile, args ++ [u]⟩)) := by
  have role : (s.updPort (.car c) (.carried 0xFF)).role c = s.role c := rfl
  rw [shiftUnit_profile h req, profileUnit,
    if_neg (show ¬ (args ++ [u]).length < 2 by
      rw [List.length_append, List.length_singleton]; omega), role, taken,
    if_neg (by decide)]
  dsimp only
  rw [if_pos (show (args ++ [u]).length < 8 by rw [List.length_append, List.length_singleton]; omega)]
  have ports (t : State) : (t.updPort (.car c) (.carried 0xFF)).updCar c
      (fun r => { r with profile := latchProfile (args ++ [u]) r.profile }) =
      (latchCar c (args ++ [u]) t).updPort (.car c) (.carried 0xFF) := rfl
  rw [ports, setRequest, State.updPort_updPort]
  rfl

/-- The eighth unit completes the request (R45). -/
theorem shiftUnit_profile_ends (h : ignores s (.car c) = false) {args : List Byte}
    (req : (s.port (.car c)).request = some ⟨.profile, args⟩) (seven : args.length = 7)
    (taken : (s.role c).refusesProfile = false) (u : Byte) :
    shiftUnit (.car c) true u s = (latchCar c (args ++ [u]) (carLinkUp c s)).updPort (.car c)
      (fun i => { i.taken none with outcome := .accepted }) := by
  have role : (s.updPort (.car c) (.carried 0xFF)).role c = s.role c := rfl
  rw [shiftUnit_profile h req, profileUnit,
    if_neg (show ¬ (args ++ [u]).length < 2 by
      rw [List.length_append, List.length_singleton]; omega), role, taken,
    if_neg (by decide)]
  dsimp only
  rw [if_neg (show ¬ (args ++ [u]).length < 8 by rw [List.length_append, List.length_singleton]; omega)]
  have done : complete (.car c) (accepting (latchCar c (args ++ [u])))
      (s.updPort (.car c) (.carried 0xFF)) = (((latchCar c (args ++ [u]) (carLinkUp c s)).updPort
        (.car c) (.carried 0xFF)).updPort (.car c) fun i => { i with request := none }).updPort
          (.car c) fun i => { i with outcome := .accepted } := rfl
  refine done.trans ?_
  rw [State.updPort_updPort, State.updPort_updPort]
  rfl

/-! ## The statement -/

/-- Of a field's units, whole: what O24 says is latched. -/
theorem latchProfile_field {args units : List Byte}
    (field : args.length = 0 ∧ units.length = 2 ∨
      2 ≤ args.length ∧ args.length ≤ 7 ∧ units.length = 1) (p : Profile) :
    latchProfile (args ++ units) p =
      match args.length with
      | 0 => { p with pr := max 5 (min 400 ((argAt units 0).toNat * 256 + (argAt units 1).toNat)) }
      | 2 => { p with b := max 30 (min 60 (argAt units 0).toNat) }
      | 3 => { p with f := max 8 (min 32 (argAt units 0).toNat) }
      | 4 => { p with a := min 40 (argAt units 0).toNat }
      | 5 => { p with g := min 16 (argAt units 0).toNat }
      | 6 => { p with tland := timeCode (argAt units 0) }
      | _ => { p with trun := timeCode (argAt units 0) } := by
  have last (u : Byte) : argAt (args ++ [u]) args.length = u := by simp [argAt]
  rcases field with ⟨none, two⟩ | ⟨more, most, one⟩
  · obtain ⟨a, b, rfl⟩ := List.length_eq_two.1 two
    rw [List.length_eq_zero_iff.1 none]
    rfl
  · obtain ⟨u, rfl⟩ := List.length_eq_one_iff.1 one
    have own : argAt [u] 0 = u := rfl
    have n : args.length = 2 ∨ args.length = 3 ∨ args.length = 4 ∨ args.length = 5 ∨
        args.length = 6 ∨ args.length = 7 := by omega
    rcases n with n | n | n | n | n | n <;> rw [n] at last <;>
      simp [latchProfile, n, last, own, clamp]

/-- Settles O24: a field's last unit looks at the role again, and latches that field alone (R45). -/
theorem profileFieldLatches : Obligations.ProfileFieldLatches := by
  intro s c args units h req field
  extract_lets u latched latch
  have same : latch = latchCar c (args ++ units) := by
    funext t
    exact congrArg (t.updCar c) (funext fun r =>
      congrArg (fun p => { r with profile := p }) (latchProfile_field field r.profile).symm)
  rw [same]
  show (_ → Host.Outcome.next (shiftArgs (.car c) units s) = _) ∧ (_ → _ → _ →
    (_ → Host.Outcome.next (shiftArgs (.car c) units s) = _) ∧
    (_ → Host.Outcome.next (shiftArgs (.car c) units s) = _))
  rcases field with ⟨none, two⟩ | ⟨more, most, one⟩
  · obtain ⟨a, b, rfl⟩ := List.length_eq_two.1 two
    obtain rfl := List.length_eq_zero_iff.1 none
    let asked := s.updPort (.car c) (.taken (some ⟨.profile, [a]⟩))
    have first : shiftArgs (.car c) [a, b] s = shiftUnit (.car c) true b asked := by
      rw [shiftArgs, List.foldl_cons, shiftUnit_profile_first h req]
      rfl
    have taking : ignores asked (.car c) = false := (ignores_updPort s _ _ rfl).trans h
    have request : (asked.port (.car c)).request = some ⟨.profile, [a]⟩ := by
      rw [State.updPort_port_same]; rfl
    rw [first]
    refine ⟨fun refused => ?_, fun notRecall notService notLost => ⟨fun _ => ?_, fun k => by cases k⟩⟩
    · rw [shiftUnit_profile_refused taking request (Nat.le_refl 1) ((Role.refusesProfile_iff _).2 refused),
        carLinkUp_updPort, State.updPort_updPort]
      rfl
    · rw [shiftUnit_profile_goesOn taking request (Nat.le_refl 1) (by simp)
        (Role.refusesProfile_eq_false notRecall notService notLost)]
      have commutes (l : List Byte) (f : PortIf → PortIf) : latchCar c l (s.updPort (.car c) f) =
        (latchCar c l s).updPort (.car c) f := rfl
      rw [commutes, State.updPort_updPort]
      rfl
  · obtain ⟨b, rfl⟩ := List.length_eq_one_iff.1 one
    have whole : shiftArgs (.car c) [b] s = shiftUnit (.car c) true b s := rfl
    rw [whole]
    refine ⟨fun refused => ?_, fun notRecall notService notLost => ?_⟩
    · rw [shiftUnit_profile_refused h req (by omega) ((Role.refusesProfile_iff _).2 refused)]
    · have taken := Role.refusesProfile_eq_false notRecall notService notLost
      exact ⟨fun few => by rw [shiftUnit_profile_goesOn h req (by omega) few taken],
        fun seven => by rw [shiftUnit_profile_ends h req seven taken]⟩

end Sys2Proof.Machine
end

section
/-!
PROOFS. The records invariant: what the fields of each car record owe one another and the phase, and how the recall
list, the service order and the queue agree with them, in a form that every act of the part keeps (R41, R50, R63,
R99, R102 to R104, R109, R112, R116). O51 and O55 are read off it. Inside an act the pending effects of one car may
still be unresolved, and that car is named.
-/

namespace Sys2Proof.Machine

/-! ## One record -/

/-- The record's car counts toward Krec (R111). -/
def CarRecord.inRecall (r : CarRecord) : Bool :=
  r.role == .recall || (r.role == .lost && r.preLoss == some .recall)

/-- The record's car counts toward Nsel (R111). -/
def CarRecord.inService (r : CarRecord) : Bool :=
  r.role == .service || (r.role == .lost && r.preLoss == some .service)

theorem State.inRecall_eq (s : State) (c : CarIx) : s.inRecall c = (s.car c).inRecall := rfl

theorem State.inService_eq (s : State) (c : CarIx) : s.inService c = (s.car c).inService := rfl

/-- The role is one a LOST car may go back to (R51, R102). -/
def Role.mayReturn (r : Role) : Bool := r != .free && r != .lost && r != .absent

/-- The role is one of a generator phase outside the plan: HELD, PARKED or UNAVAILABLE. -/
def Role.aside (r : Role) : Bool := r == .held || r == .parked || r == .unavailable

theorem Role.aside_iff (r : Role) : r.aside = true ↔ r = .held ∨ r = .parked ∨ r = .unavailable := by
  cases r <;> simp [Role.aside]

/-- What the fields of a configured car's record owe one another and the phase. -/
structure CarRecord.Agrees (generator : Bool) (r : CarRecord) : Prop where
  mains : generator = false → (r.role = .free ∨ r.role = .lost) ∧ r.trip.state = .none ∧
    r.inRecall = false ∧ r.inService = false
  running : generator = true → r.role ≠ .free ∧ r.role ≠ .absent
  preLossLost : r.preLoss.isSome = true → r.role = .lost
  preLossRole : generator = true → r.role = .lost → r.preLoss.any Role.mayReturn = true
  linkTimer : r.linkTimer.isSome = true ↔ r.link = .up
  recallSlot : r.slotStart.isSome = true ↔ r.inRecall = true
  recallTimer : r.recallTimer.isSome = true → r.inRecall = true
  waits : r.trip.state = .waiting → r.role = .recall ∨ r.role = .service
  pendDesel : r.pendDesel = true → r.inService = true ∧ r.trip.state ≠ .waiting

/-- The pending effects still have something to wait for (R62, R63). -/
structure CarRecord.Awaits (generator : Bool) (r : CarRecord) : Prop where
  pendExcl : r.pendExcl = true →
    r.trip.state.moving = true ∨ r.role = .lost ∧ generator = true
  pendUnavail : r.pendUnavail = true → r.trip.state.moving = true
  pendDesel : r.pendDesel = true → r.trip.state.moving = true ∨ r.role = .lost

/-- The fields of a record that the rules above read. -/
def CarRecord.key (r : CarRecord) : (Role × Option Role × Bool × Bool) × (Link × Bool) ×
    (TripState × Bool × Bool × Bool) :=
  ((r.role, r.preLoss, r.slotStart.isSome, r.recallTimer.isSome), (r.link, r.linkTimer.isSome),
    (r.trip.state, r.pendExcl, r.pendUnavail, r.pendDesel))

namespace CarRecord

variable {r q : CarRecord} {g : Bool}

theorem inRecall_iff (r : CarRecord) : r.inRecall = true ↔
    r.role = .recall ∨ r.role = .lost ∧ r.preLoss = some .recall := by simp [inRecall]

theorem inService_iff (r : CarRecord) : r.inService = true ↔
    r.role = .service ∨ r.role = .lost ∧ r.preLoss = some .service := by simp [inService]

theorem inService_aside (aside : r.role.aside = true) : r.inService = false := by
  rcases (Role.aside_iff _).1 aside with e | e | e <;> simp [inService, e]

theorem Agrees.of_key (h : r.Agrees g) (key : q.key = r.key) : q.Agrees g := by
  simp only [CarRecord.key, Prod.mk.injEq] at key
  obtain ⟨⟨role, preLoss, slot, timer⟩, ⟨link, linkTimer⟩, state, -, -, desel⟩ := key
  have recalled : q.inRecall = r.inRecall := by simp only [inRecall, role, preLoss]
  have serving : q.inService = r.inService := by simp only [inService, role, preLoss]
  constructor
  · rw [role, state, recalled, serving]; exact h.mains
  · rw [role]; exact h.running
  · rw [preLoss, role]; exact h.preLossLost
  · rw [preLoss, role]; exact h.preLossRole
  · rw [linkTimer, link]; exact h.linkTimer
  · rw [slot, recalled]; exact h.recallSlot
  · rw [timer, recalled]; exact h.recallTimer
  · rw [state, role]; exact h.waits
  · rw [desel, state, serving]; exact h.pendDesel

theorem Awaits.of_key (h : r.Awaits g) (key : q.key = r.key) : q.Awaits g := by
  simp only [CarRecord.key, Prod.mk.injEq] at key
  obtain ⟨⟨role, -⟩, -, state, excl, unavail, desel⟩ := key
  constructor
  · rw [excl, state, role]; exact h.pendExcl
  · rw [unavail, state]; exact h.pendUnavail
  · rw [desel, state, role]; exact h.pendDesel

theorem inService_of_key (key : q.key = r.key) : q.inService = r.inService := by
  simp only [CarRecord.key, Prod.mk.injEq] at key
  simp only [inService, key.1.1, key.1.2.1]

/-- Only a car counted toward Krec or LOST, or one that serves, is not aside. -/
theorem Agrees.generator (h : r.Agrees g) (role : r.role ≠ .free ∧ r.role ≠ .lost) : g = true := by
  cases g
  · exact ((h.mains rfl).1.elim role.1 role.2).elim
  · rfl

theorem Agrees.preLoss_none (h : r.Agrees g) (role : r.role ≠ .lost) : r.preLoss = none := by
  cases e : r.preLoss
  · rfl
  · exact absurd (h.preLossLost (by rw [e]; rfl)) role

theorem inRecall_of_not_lost (role : r.role ≠ .lost) : r.inRecall = true ↔ r.role = .recall := by
  simp [inRecall_iff, role]

theorem inService_of_not_lost (role : r.role ≠ .lost) : r.inService = true ↔ r.role = .service := by
  simp [inService_iff, role]

/-- A record in a generator phase, in a role other than LOST. -/
theorem Agrees.of_running (role : q.role ≠ .absent ∧ q.role ≠ .free ∧ q.role ≠ .lost)
    (preLoss : q.preLoss = none) (link : q.linkTimer.isSome = true ↔ q.link = .up)
    (slot : q.slotStart.isSome = true ↔ q.role = .recall)
    (timer : q.recallTimer.isSome = true → q.role = .recall)
    (waits : q.trip.state = .waiting → q.role = .recall ∨ q.role = .service)
    (desel : q.pendDesel = true → q.role = .service ∧ q.trip.state ≠ .waiting) : q.Agrees true where
  mains off := by cases off
  running _ := ⟨role.2.1, role.1⟩
  preLossLost some := by rw [preLoss] at some; cases some
  preLossRole _ lost := absurd lost role.2.2
  linkTimer := link
  recallSlot := slot.trans (inRecall_of_not_lost role.2.2).symm
  recallTimer some := (inRecall_of_not_lost role.2.2).2 (timer some)
  waits := waits
  pendDesel some := ⟨(inService_of_not_lost role.2.2).2 (desel some).1, (desel some).2⟩

/-- The record of a LOST car in a generator phase. -/
theorem Agrees.of_lost (role : q.role = .lost) (preLoss : q.preLoss.any Role.mayReturn = true)
    (link : q.linkTimer.isSome = true ↔ q.link = .up)
    (slot : q.slotStart.isSome = true ↔ q.preLoss = some .recall)
    (timer : q.recallTimer.isSome = true → q.preLoss = some .recall)
    (state : q.trip.state ≠ .waiting)
    (desel : q.pendDesel = true → q.preLoss = some .service) : q.Agrees true where
  mains off := by cases off
  running _ := by rw [role]; decide
  preLossLost _ := role
  preLossRole _ _ := preLoss
  linkTimer := link
  recallSlot := slot.trans (by simp [inRecall_iff, role])
  recallTimer some := (inRecall_iff _).2 (.inr ⟨role, timer some⟩)
  waits waiting := absurd waiting state
  pendDesel some := ⟨(inService_iff _).2 (.inr ⟨role, desel some⟩), state⟩

/-- A record in START or MAINS. -/
theorem Agrees.of_mains (role : q.role = .free ∧ q.preLoss = none ∨ q.role = .lost)
    (preLoss : q.preLoss ≠ some .recall ∧ q.preLoss ≠ some .service)
    (link : q.linkTimer.isSome = true ↔ q.link = .up)
    (slot : q.slotStart = none ∧ q.recallTimer = none) (state : q.trip.state = .none)
    (desel : q.pendDesel = false) : q.Agrees false := by
  have away : q.inRecall = false ∧ q.inService = false := by
    rcases role with ⟨free, -⟩ | lost
    · simp [inRecall, inService, free]
    · simp [inRecall, inService, lost, preLoss]
  refine ⟨fun _ => ⟨role.imp_left And.left, state, away⟩, fun on => (by cases on), fun some => ?_,
    fun on => (by cases on), link, ?_, fun some => ?_, fun waits => ?_, fun some => ?_⟩
  · exact role.resolve_left fun free => by rw [free.2] at some; cases some
  · simp [slot.1, away.1]
  · rw [slot.2] at some; cases some
  · rw [state] at waits; cases waits
  · rw [desel] at some; cases some

/-- A car put aside in a generator phase holds no slot, no supervision and no pending deselection. -/
theorem Agrees.of_aside (role : q.role.aside = true) (preLoss : q.preLoss = none)
    (link : q.linkTimer.isSome = true ↔ q.link = .up)
    (slot : q.slotStart = none ∧ q.recallTimer = none) (state : q.trip.state ≠ .waiting)
    (desel : q.pendDesel = false) : q.Agrees true := by
  have aside := (Role.aside_iff _).1 role
  refine .of_running ?_ preLoss link ?_ (fun some => ?_) (fun waits => absurd waits state)
    fun some => ?_
  · rcases aside with e | e | e <;> rw [e] <;> decide
  · rcases aside with e | e | e <;> simp [slot.1, e]
  · rw [slot.2] at some; cases some
  · rw [desel] at some; cases some

/-- What of a record in a role of a generator phase, but not LOST, follows from its role. -/
theorem Agrees.of_role (h : r.Agrees g) (role : r.role ≠ .lost) :
    r.preLoss = none ∧ (r.slotStart.isSome = true ↔ r.role = .recall) ∧
    (r.recallTimer.isSome = true → r.role = .recall) ∧
    (r.pendDesel = true → r.role = .service ∧ r.trip.state ≠ .waiting) :=
  ⟨h.preLoss_none role, h.recallSlot.trans (inRecall_of_not_lost role),
    fun some => (inRecall_of_not_lost role).1 (h.recallTimer some),
    fun some => ⟨(inService_of_not_lost role).1 (h.pendDesel some).1, (h.pendDesel some).2⟩⟩

/-- What of a LOST car's record follows from its pre-loss role. -/
theorem Agrees.of_preLoss (h : r.Agrees g) (role : r.role = .lost) :
    (r.slotStart.isSome = true ↔ r.preLoss = some .recall) ∧
    (r.recallTimer.isSome = true → r.preLoss = some .recall) ∧
    (r.pendDesel = true → r.preLoss = some .service) ∧ r.trip.state ≠ .waiting := by
  have recalled : r.inRecall = true ↔ r.preLoss = some .recall := by simp [inRecall_iff, role]
  have serving : r.inService = true ↔ r.preLoss = some .service := by simp [inService_iff, role]
  refine ⟨h.recallSlot.trans recalled, fun some => recalled.1 (h.recallTimer some),
    fun some => serving.1 (h.pendDesel some).1, fun waits => ?_⟩
  rcases h.waits waits with e | e <;> rw [role] at e <;> cases e

/-- A car without a pending effect has nothing to wait for. -/
theorem Awaits.of_none (excl : q.pendExcl = false) (unavail : q.pendUnavail = false)
    (desel : q.pendDesel = false) : q.Awaits g :=
  ⟨fun some => (by rw [excl] at some; cases some), fun some => (by rw [unavail] at some; cases some),
    fun some => (by rw [desel] at some; cases some)⟩

/-- What a car that is not LOST waits for, its trip's end, it goes on waiting for in another role. -/
theorem Awaits.moved (h : r.Awaits g) (role : r.role ≠ .lost) (state : q.trip.state = r.trip.state)
    (excl : q.pendExcl = r.pendExcl) (unavail : q.pendUnavail = r.pendUnavail)
    (desel : q.pendDesel = false) : q.Awaits g := by
  refine ⟨fun some => .inl ?_, fun some => ?_, fun some => absurd (desel.symm.trans some) (by decide)⟩
  · rw [state]
    exact (h.pendExcl (excl ▸ some)).resolve_right fun lost => role lost.1
  · rw [state]; exact h.pendUnavail (unavail ▸ some)

end CarRecord

/-! ## The records of a state -/

/-- Changing a car a second time replaces the first change. -/
theorem State.updCar_updCar (s : State) (c : CarIx) (f k : CarRecord → CarRecord) :
    (s.updCar c f).updCar c k = s.updCar c fun r => k (f r) := by
  simp [State.updCar, State.car]

/-- The record of a car that leaves the plan (R106, R109). -/
def CarRecord.offPlan (r : CarRecord) : CarRecord := { r with recallTimer := none, slotStart := none }

/-- A further change of a car that has left the plan may come first. -/
theorem leavePlan_updCar (s : State) (c : CarIx) (f k : CarRecord → CarRecord)
    (commutes : ∀ r : CarRecord, k r.offPlan = (k r).offPlan) :
    (leavePlan c (s.updCar c f)).updCar c k = leavePlan c (s.updCar c fun r => k (f r)) := by
  have cars (t : State) : (t.updCar c f).updCar c (fun r => k r.offPlan) =
      (t.updCar c fun r => k (f r)).updCar c CarRecord.offPlan := by
    simp only [State.updCar_updCar, commutes]
  have left (t : State) : (leavePlan c t).updCar c k =
      { (t.updCar c fun r => k r.offPlan) with plan := (leavePlan c t).plan } := by
    rw [← State.updCar_updCar t c CarRecord.offPlan k]
    rfl
  rw [left, cars]
  rfl

/-- What a deselection writes, beside the entry it drops (R114, R125). -/
theorem deselect_eq (c : CarIx) (s : State) : deselect c s =
    (leavePlan c ((dropEntry c .role s).updCar c fun r =>
      { r with powered := false, role := .parked, pendDesel := false })).noticeCar c .park := by
  rw [deselect, park, leavePlan_updCar]
  exact fun _ => rfl

theorem makeUnavailable_eq (c : CarIx) (s : State) : makeUnavailable c s =
    leavePlan c (s.updCar c fun r => { r with
      powered := false, role := .unavailable, pendExcl := false, pendUnavail := false,
      pendDesel := false }) := by
  rw [makeUnavailable, clearPending, leavePlan_updCar]
  exact fun _ => rfl

theorem setEntries_ports (l : List CarIx) (s : State) : (setEntries l s).ports = s.ports := by
  unfold setEntries
  dsimp only
  split
  · rfl
  · split <;> rfl

/-- What R99 and R116 read of the plan. -/
def Plan.timing (p : Plan) : Phase × Clearance × Bool × Bool × Bool :=
  (p.phase, p.clearance, p.returnTimer.isSome, p.settleTimer.isSome, p.recallDone)

theorem State.PhaseTimed.of_timing {s t : State} (h : s.PhaseTimed)
    (same : t.plan.timing = s.plan.timing) : t.PhaseTimed := by
  simp only [Plan.timing, Prod.mk.injEq] at same
  obtain ⟨phase, clearance, returnTimer, settleTimer, recallDone⟩ := same
  constructor
  · rw [clearance, phase]; exact h.clearance
  · rw [returnTimer, phase, clearance]; exact h.returnTimer
  · rw [settleTimer, phase]; exact h.settleTimer
  · rw [phase, recallDone]; exact h.recallDone
  · rw [phase, recallDone]; exact h.service

/-- The records agree, but that the pending effects of car `x`, where one is named, may have nothing left to
wait for. -/
structure State.RecordsAgree (x : Option CarIx) (s : State) : Prop where
  absent : ∀ c, s.configured c = false →
    s.car c = .atReset .absent ∧ (s.port (.car c)).notices = 0
  cars : ∀ c, s.configured c = true → (s.car c).Agrees s.plan.phase.generator
  awaits : ∀ c, x ≠ some c → s.configured c = true → (s.car c).Awaits s.plan.phase.generator
  orderOnce : s.plan.serviceOrder.Nodup
  order : ∀ c, c ∈ s.plan.serviceOrder ↔ (s.car c).inService = true
  listOnce : (s.plan.recallList.map fun e => e.car).Nodup
  listHeld : ∀ e ∈ s.plan.recallList, s.role e.car = .held ∧ (s.car e.car).recallFailed = false
  queue : ∀ c ∈ s.queue.entries, (s.trip c).state = .waiting
  timed : s.PhaseTimed

/-- What of a state these rules read, but for the ports. -/
def State.recorded (s : State) : Vector CarRecord 12 × Plan × List CarIx × Image :=
  (s.cars, s.plan, s.queue.entries, s.store.active)

namespace State.RecordsAgree

variable {s t : State} {x : Option CarIx} {c : CarIx}

/-! ## Which cars are configured -/

theorem configured_of_role (h : s.RecordsAgree x) (role : s.role c ≠ .absent) :
    s.configured c = true := by
  cases e : s.configured c
  · exact absurd (by rw [State.role, (h.absent c e).1]; rfl) role
  · rfl

theorem configured_of_trip (h : s.RecordsAgree x) (state : (s.trip c).state ≠ .none) :
    s.configured c = true := by
  cases e : s.configured c
  · exact absurd (by rw [State.trip, (h.absent c e).1]; rfl) state
  · rfl

theorem of_role (h : s.RecordsAgree x) (role : s.role c ≠ .absent) :
    (s.car c).Agrees s.plan.phase.generator := h.cars c (h.configured_of_role role)

/-- A car in a role of the generator phases is in one. -/
theorem generator (h : s.RecordsAgree x)
    (role : s.role c ≠ .absent ∧ s.role c ≠ .free ∧ s.role c ≠ .lost) :
    s.plan.phase.generator = true := (h.of_role role.1).generator role.2

theorem preLoss_none (h : s.RecordsAgree x) (role : s.role c ≠ .lost) : (s.car c).preLoss = none := by
  cases e : s.configured c
  · rw [(h.absent c e).1]; rfl
  · exact (h.cars c e).preLoss_none role

theorem not_queued (h : s.RecordsAgree x) (state : (s.trip c).state ≠ .waiting) :
    c ∉ s.queue.entries := fun queued => state (h.queue c queued)

theorem not_waiting (h : s.RecordsAgree x) (role : s.role c ≠ .recall ∧ s.role c ≠ .service) :
    (s.trip c).state ≠ .waiting := by
  intro waits
  have on := h.configured_of_trip (c := c) (by rw [waits]; decide)
  exact ((h.cars c on).waits waits).elim role.1 role.2

theorem not_listed (h : s.RecordsAgree x)
    (other : s.role c ≠ .held ∨ (s.car c).recallFailed = true) :
    ∀ e ∈ s.plan.recallList, e.car ≠ c := by
  rintro e he rfl
  obtain ⟨role, failed⟩ := h.listHeld e he
  rcases other with k | k
  · exact k role
  · rw [failed] at k; cases k

/-! ## Changes that these rules do not read -/

theorem parts_hushed (h : s.RecordsAgree x) (same : t.recorded = s.recorded)
    (hushed : ∀ c, s.configured c = false →
      (t.port (.car c)).notices = (s.port (.car c)).notices) : t.RecordsAgree x := by
  simp only [State.recorded, Prod.mk.injEq] at same
  obtain ⟨cars, plan, queue, active⟩ := same
  have car (c : CarIx) : t.car c = s.car c := by rw [State.car, cars]; rfl
  have configured (c : CarIx) : t.configured c = s.configured c := by
    rw [State.configured, active]; rfl
  constructor
  · intro c off
    rw [configured] at off
    rw [car, hushed c off]; exact h.absent c off
  · intro c; rw [configured, car, plan]; exact h.cars c
  · intro c; rw [configured, car, plan]; exact h.awaits c
  · rw [plan]; exact h.orderOnce
  · intro c; rw [plan, car]; exact h.order c
  · rw [plan]; exact h.listOnce
  · intro e; rw [plan, State.role, car]; exact h.listHeld e
  · intro c; rw [queue, State.trip, car]; exact h.queue c
  · exact h.timed.of_timing (by rw [plan])

theorem parts (h : s.RecordsAgree x) (same : t.recorded = s.recorded) (ports : t.ports = s.ports) :
    t.RecordsAgree x :=
  h.parts_hushed same fun c _ => by rw [State.port, ports]; rfl

theorem updPort (h : s.RecordsAgree x) {p : Port} {f : PortIf → PortIf}
    (hushed : ∀ c, p = .car c → s.configured c = false →
      (f (s.port p)).notices = (s.port p).notices) : (s.updPort p f).RecordsAgree x := by
  refine h.parts_hushed rfl fun c off => ?_
  rw [State.updPort_port]
  split
  · rename_i same; rw [same]; exact hushed c same.symm off
  · rfl

theorem noticeCar (h : s.RecordsAgree x) (d : CarIx) (k : CarNotice) :
    (s.noticeCar d k).RecordsAgree x := by
  unfold State.noticeCar
  split
  · rename_i on
    exact h.updPort fun c same off => by cases same; rw [on] at off; cases off
  · exact h

theorem noticeSupply (h : s.RecordsAgree x) (k : SupplyNotice) : (s.noticeSupply k).RecordsAgree x :=
  h.updPort (p := .supply) (f := fun i => { i with notices := _ }) fun _ same => by cases same

theorem noticePanel (h : s.RecordsAgree x) (k : PanelNotice) : (s.noticePanel k).RecordsAgree x :=
  h.updPort (p := .panel) (f := fun i => { i with notices := _ }) fun _ same => by cases same

theorem noticeCars (h : s.RecordsAgree x) (k : CarNotice) : (s.noticeCars k).RecordsAgree x :=
  List.foldlRecOn allCars _ h fun _ ht d _ => ht.noticeCar d k

/-! ## Changes of the list, the order and one record -/

/-- One configured car's record changes, with its places in the list, the order and the queue. -/
theorem one (h : s.RecordsAgree x) {r : CarRecord} (on : s.configured c = true)
    (own : t.car c = r) (store : t.store = s.store)
    (ports : t.ports = s.ports) (others : ∀ d, d ≠ c → t.car d = s.car d)
    (timing : t.plan.timing = s.plan.timing)
    (agrees : r.Agrees s.plan.phase.generator)
    (awaits : x ≠ some c → r.Awaits s.plan.phase.generator)
    (orderOnce : t.plan.serviceOrder.Nodup)
    (order : ∀ d, d ≠ c → (d ∈ t.plan.serviceOrder ↔ d ∈ s.plan.serviceOrder))
    (serves : c ∈ t.plan.serviceOrder ↔ r.inService = true)
    (list : t.plan.recallList.Sublist s.plan.recallList)
    (held : (∃ e ∈ t.plan.recallList, e.car = c) → r.role = .held ∧ r.recallFailed = false)
    (queue : t.queue.entries.Sublist s.queue.entries)
    (waits : c ∈ t.queue.entries → r.trip.state = .waiting) : t.RecordsAgree x := by
  subst own
  have phase : t.plan.phase = s.plan.phase := congrArg Prod.fst timing
  have configured (d : CarIx) : t.configured d = s.configured d := by
    rw [State.configured, store]; rfl
  have other {d : CarIx} (off : s.configured d = false) : d ≠ c := fun same => by
    rw [same, on] at off; cases off
  constructor
  · intro d off
    rw [configured] at off
    rw [others d (other off), State.port, ports]
    exact h.absent d off
  · intro d on'
    rw [phase]
    by_cases same : d = c
    · rw [same]; exact agrees
    · rw [others d same]; exact h.cars d (configured d ▸ on')
  · intro d open' on'
    rw [phase]
    by_cases same : d = c
    · subst same; exact awaits open'
    · rw [others d same]; exact h.awaits d open' (configured d ▸ on')
  · exact orderOnce
  · intro d
    by_cases same : d = c
    · rw [same]; exact serves
    · rw [order d same, others d same]; exact h.order d
  · exact (list.map _).nodup h.listOnce
  · intro e he
    by_cases same : e.car = c
    · rw [same]; exact held ⟨e, he, same⟩
    · rw [State.role, others _ same]; exact h.listHeld e (list.subset he)
  · intro d hd
    by_cases same : d = c
    · subst same; exact waits hd
    · rw [State.trip, others d same]; exact h.queue d (queue.subset hd)
  · exact h.timed.of_timing timing

/-- One configured car's record changes, and it keeps its places. -/
theorem updCar (h : s.RecordsAgree x) {f : CarRecord → CarRecord} (on : s.configured c = true)
    (agrees : (f (s.car c)).Agrees s.plan.phase.generator)
    (awaits : x ≠ some c → (f (s.car c)).Awaits s.plan.phase.generator)
    (serves : (f (s.car c)).inService = (s.car c).inService)
    (held : (∃ e ∈ s.plan.recallList, e.car = c) →
      (f (s.car c)).role = .held ∧ (f (s.car c)).recallFailed = false)
    (waits : c ∈ s.queue.entries → (f (s.car c)).trip.state = .waiting) :
    (s.updCar c f).RecordsAgree x := by
  refine h.one on (State.updCar_car_same s c f) rfl rfl (fun d ne => State.updCar_car_ne s f ne) rfl
    agrees awaits h.orderOnce (fun _ _ => Iff.rfl) ?_ (.refl _) held (.refl _) waits
  rw [serves]; exact h.order c

/-- What these rules do not read of a configured car's record may change. -/
theorem edit (h : s.RecordsAgree x) {f : CarRecord → CarRecord} (on : s.configured c = true)
    (key : ∀ r, (f r).key = r.key) (failed : ∀ r, (f r).recallFailed = r.recallFailed) :
    (s.updCar c f).RecordsAgree x := by
  refine h.updCar on ((h.cars c on).of_key (key _)) (fun other => (h.awaits c other on).of_key (key _))
    (CarRecord.inService_of_key (key _)) ?_ fun queued => ?_
  · rintro ⟨e, he, rfl⟩
    rw [failed, show (f (s.car e.car)).role = (s.car e.car).role from congrArg (fun k => k.1.1) (key _)]
    exact h.listHeld e he
  · exact (congrArg (fun k => k.2.2.1) (key _)).trans (h.queue c queued)

/-- A configured car leaves the list and the order. -/
theorem leave (h : s.RecordsAgree x) {f : CarRecord → CarRecord} (on : s.configured c = true)
    (out : c ∉ s.queue.entries)
    (agrees : (f (s.car c)).offPlan.Agrees s.plan.phase.generator)
    (awaits : x ≠ some c → (f (s.car c)).offPlan.Awaits s.plan.phase.generator)
    (serves : (f (s.car c)).inService = false) :
    (leavePlan c (s.updCar c f)).RecordsAgree x := by
  have car (d : CarIx) : (leavePlan c (s.updCar c f)).car d =
      if d = c then (f (s.car c)).offPlan else s.car d := by
    rw [leavePlan_car]
    split
    · rw [State.updCar_car_same]; rfl
    · rename_i ne; rw [State.updCar_car_ne _ _ ne]
  refine h.one on ((car c).trans (if_pos rfl)) rfl rfl (fun d ne => by rw [car, if_neg ne]) rfl
    agrees awaits (h.orderOnce.filter _) (fun d ne => ?_) ?_ List.filter_sublist ?_ (.refl _)
    fun queued => absurd queued out
  · show d ∈ s.plan.serviceOrder.filter (fun d => d != c) ↔ _
    simp [ne]
  · show c ∈ s.plan.serviceOrder.filter (fun d => d != c) ↔ _
    have no : (f (s.car c)).offPlan.inService = false := serves
    simp [no]
  · rintro ⟨e, he, same⟩
    exact absurd same (not_listed_filter c s.plan.recallList e he)

theorem setEntries (h : s.RecordsAgree x) {l : List CarIx}
    (waits : ∀ c ∈ l, (s.trip c).state = .waiting) : (setEntries l s).RecordsAgree x := by
  have plan := setEntries_plan l s
  have ports (d : CarIx) : (Machine.setEntries l s).port (.car d) = s.port (.car d) := by
    rw [State.port, setEntries_ports]; rfl
  have configured (d : CarIx) : (Machine.setEntries l s).configured d = s.configured d := by
    rw [State.configured, (setEntries_only (.refl s) l).store]; rfl
  constructor
  · intro d; rw [configured, setEntries_car, ports]; exact h.absent d
  · intro d; rw [configured, setEntries_car, plan]; exact h.cars d
  · intro d; rw [configured, setEntries_car, plan]; exact h.awaits d
  · rw [plan]; exact h.orderOnce
  · intro d; rw [plan, setEntries_car]; exact h.order d
  · rw [plan]; exact h.listOnce
  · intro e; rw [plan, State.role, setEntries_car]; exact h.listHeld e
  · intro d queued
    rw [setEntries_entries] at queued
    rw [State.trip, setEntries_car]; exact waits d queued
  · exact h.timed.of_timing (by rw [plan])

theorem removeEntry (h : s.RecordsAgree x) (c : CarIx) : (removeEntry c s).RecordsAgree x :=
  h.setEntries fun d queued => h.queue d (List.mem_filter.1 queued).1

/-- The trip of a configured car that is not queued ends. -/
theorem endsTrip (h : s.RecordsAgree x) {f : Trip → Trip} (on : s.configured c = true)
    (out : c ∉ s.queue.entries) (was : (s.trip c).state = .waiting)
    (state : (f (s.trip c)).state = .none) : (s.updTrip c f).RecordsAgree x := by
  have agrees := h.cars c on
  have still : (s.car c).trip.state.moving = false := by
    rw [show (s.car c).trip.state = .waiting from was]; rfl
  have noDesel : (s.car c).pendDesel = false := Bool.eq_false_iff.2 fun desel =>
    (agrees.pendDesel desel).2 was
  refine h.updCar on { agrees with
      mains := fun off => ⟨(agrees.mains off).1, state, (agrees.mains off).2.2⟩
      waits := fun waits => absurd (state.symm.trans waits) (by decide)
      pendDesel := fun desel => by rw [noDesel] at desel; cases desel }
    (fun other => ⟨fun excl => ?_, fun unavail => ?_, fun desel => ?_⟩) rfl ?_
    fun queued => absurd queued out
  · rcases (h.awaits c other on).pendExcl excl with moves | lost
    · rw [still] at moves; cases moves
    · exact .inr lost
  · have moves := (h.awaits c other on).pendUnavail unavail
    rw [still] at moves; cases moves
  · exact absurd (noDesel.symm.trans desel) (by decide)
  · rintro ⟨e, he, rfl⟩; exact h.listHeld e he

theorem dropEntry (h : s.RecordsAgree x) (c : CarIx) (r : DropReason) :
    (dropEntry c r s).RecordsAgree x := by
  unfold Machine.dropEntry
  split
  · rename_i waits
    have trip : (Machine.removeEntry c s).trip c = s.trip c := by
      rw [State.trip, removeEntry_car]; rfl
    have on : s.configured c = true := h.configured_of_trip (by rw [waits]; decide)
    refine State.RecordsAgree.noticeCar ((h.removeEntry c).endsTrip ?_ (not_mem_removeEntry s c)
      (by rw [trip]; exact waits) rfl) c .dropped
    rw [State.configured, (removeEntry_only (.refl s) c).store]; exact on
  · exact h

/-! ## The moves of a closing event -/

/-- The list may lose entries. -/
theorem shorten (h : s.RecordsAgree x) {l : List RecallEntry}
    (sub : l.Sublist s.plan.recallList) :
    State.RecordsAgree x { s with plan := { s.plan with recallList := l } } :=
  { h with
    listOnce := (sub.map _).nodup h.listOnce
    listHeld := fun e he => h.listHeld e (sub.subset he)
    timed := h.timed.of_timing rfl }

/-- A car that is not LOST and not in service is PARKED (R107, R108). -/
theorem park (h : s.RecordsAgree x) (role : s.role c ≠ .absent ∧ s.role c ≠ .free ∧ s.role c ≠ .lost)
    (state : (s.trip c).state ≠ .waiting) (notServing : s.role c ≠ .service) :
    (park c s).RecordsAgree x := by
  have on := h.configured_of_role role.1
  have agrees := h.cars c on
  obtain ⟨preLoss, -, -, desel⟩ := agrees.of_role role.2.2
  have noDesel : (s.car c).pendDesel = false :=
    Bool.eq_false_iff.2 fun some => notServing (desel some).1
  refine h.leave on (h.not_queued state) ?_
    (fun other => (h.awaits c other on).moved role.2.2 rfl rfl rfl noDesel) rfl
  rw [h.generator role]
  exact .of_aside rfl preLoss agrees.linkTimer ⟨rfl, rfl⟩ state noDesel

/-- A HELD car off the list is called: PARKED at its recall landing, else in role RECALL (R107). -/
theorem callCar (h : s.RecordsAgree x) (held : s.role c = .held)
    (unlisted : ∀ e ∈ s.plan.recallList, e.car ≠ c) : (callCar c s).RecordsAgree x := by
  have role : s.role c ≠ .absent ∧ s.role c ≠ .free ∧ s.role c ≠ .lost := by rw [held]; decide
  have state := h.not_waiting (c := c) (by rw [held]; decide)
  have on := h.configured_of_role role.1
  have agrees := h.cars c on
  obtain ⟨preLoss, -, -, desel⟩ := agrees.of_role role.2.2
  have noDesel : (s.car c).pendDesel = false := Bool.eq_false_iff.2 fun some => by
    have serves : s.role c = .service := (desel some).1
    rw [held] at serves; cases serves
  have away : (s.car c).inService = false := CarRecord.inService_aside (by
    rw [show (s.car c).role = .held from held]; rfl)
  unfold Machine.callCar
  split
  · exact h.park role state (by rw [held]; decide)
  · refine State.RecordsAgree.noticeCar (h.updCar on ?_
      (fun other => (h.awaits c other on).moved role.2.2 rfl rfl rfl noDesel) ?_ ?_
      fun queued => absurd queued (h.not_queued state)) c .recallCall
    · rw [h.generator role]
      exact .of_running ⟨by simp, by simp, by simp⟩ preLoss agrees.linkTimer
        ⟨fun _ => rfl, fun _ => rfl⟩ (fun _ => rfl) (fun _ => .inl rfl)
        fun some => absurd (noDesel.symm.trans some) (by decide)
    · exact away.symm
    · rintro ⟨e, he, same⟩; exact absurd same (unlisted e he)

theorem call (h : s.RecordsAgree x) {e : RecallEntry} {rest : List RecallEntry}
    (list : s.plan.recallList = e :: rest) :
    (Machine.callCar e.car { s with plan := { s.plan with recallList := rest } }).RecordsAgree x := by
  have short := h.shorten (l := rest) (by rw [list]; exact List.sublist_cons_self e rest)
  refine short.callCar (h.listHeld e (by rw [list]; exact List.mem_cons_self ..)).1 fun d hd same => ?_
  have once := h.listOnce
  rw [list, List.map_cons, List.nodup_cons] at once
  exact once.1 (same ▸ List.mem_map_of_mem hd)

theorem enterPhase (h : s.RecordsAgree x) {p : Phase}
    (generator : p.generator = s.plan.phase.generator)
    (timed : State.PhaseTimed { s with plan := { s.plan with phase := p } }) :
    (enterPhase p s).RecordsAgree x := by
  have moved : State.RecordsAgree x { s with plan := { s.plan with phase := p } } :=
    { h with
      cars := fun c on => by
        show CarRecord.Agrees p.generator _
        rw [generator]; exact h.cars c on
      awaits := fun c other on => by
        show CarRecord.Awaits p.generator _
        rw [generator]; exact h.awaits c other on
      timed := timed }
  exact ((moved.noticeSupply .phase).noticePanel .phase).noticeCars .phase

theorem endRecall (h : s.RecordsAgree x) (phase : s.plan.phase = .recall) :
    (endRecall s).RecordsAgree x := by
  have timed := h.timed
  have clearance : s.plan.clearance ≠ .clear := fun k => by
    have was := timed.clearance k; rw [phase] at was; cases was
  have returnTimer : ¬ s.plan.returnTimer.isSome = true := fun k => by
    have was := (timed.returnTimer k).1; rw [phase] at was; cases was
  have settleTimer : ¬ s.plan.settleTimer.isSome = true := fun k => by
    have was := timed.settleTimer k; rw [phase] at was; cases was
  have marked : State.RecordsAgree x { s with plan := { s.plan with recallDone := true } } :=
    { h with timed := ⟨timed.clearance, timed.returnTimer, timed.settleTimer,
        fun quiet => (by rw [show s.plan.phase = .recall from phase] at quiet; cases quiet),
        fun _ => rfl⟩ }
  refine State.RecordsAgree.noticePanel (marked.enterPhase ?_ ?_) .recallDone
  · show Phase.generator .service = s.plan.phase.generator
    rw [phase]; rfl
  · exact ⟨fun k => absurd k clearance, fun k => absurd k returnTimer, fun k => absurd k settleTimer,
      fun quiet => (by cases quiet), fun _ => rfl⟩

/-- A car that is in role SERVICE is deselected: its entry is dropped and it is PARKED (R114, R125). -/
theorem deselect (h : s.RecordsAgree x) (serves : s.role c = .service) :
    (deselect c s).RecordsAgree x := by
  have role : s.role c ≠ .absent ∧ s.role c ≠ .free ∧ s.role c ≠ .lost := by rw [serves]; decide
  have on := h.configured_of_role role.1
  have dropped := h.dropEntry c .role
  have on' : (Machine.dropEntry c .role s).configured c = true := by
    rw [State.configured, (dropEntry_only (.refl s) c .role).store]; exact on
  have agrees := dropped.cars c on'
  have role' : (Machine.dropEntry c .role s).role c = .service := by
    rw [State.role, dropEntry_car]; split <;> exact serves
  have state : ((Machine.dropEntry c .role s).trip c).state ≠ .waiting := by
    rw [dropEntry_trip]
    split
    · exact fun waits => by cases waits
    · rename_i no; exact fun waits => no ⟨rfl, waits⟩
  rw [deselect_eq]
  refine (dropped.leave on' (dropped.not_queued state) ?_ (fun other => (dropped.awaits c other on').moved
    (fun lost => absurd (role'.symm.trans lost) (by decide)) rfl rfl rfl rfl) rfl).noticeCar c .park
  rw [dropped.generator (c := c) (by rw [role']; decide)]
  exact .of_aside rfl (dropped.preLoss_none (by rw [role']; decide)) agrees.linkTimer ⟨rfl, rfl⟩ state rfl

/-- A PARKED car is selected (R112). -/
theorem selectCar (h : s.RecordsAgree x) (parked : s.role c = .parked) :
    (selectCar c s).RecordsAgree x := by
  have role : s.role c ≠ .absent ∧ s.role c ≠ .free ∧ s.role c ≠ .lost := by rw [parked]; decide
  have state := h.not_waiting (c := c) (by rw [parked]; decide)
  have on := h.configured_of_role role.1
  have agrees := h.cars c on
  obtain ⟨preLoss, slot, timer, desel⟩ := agrees.of_role role.2.2
  have noDesel : (s.car c).pendDesel = false := Bool.eq_false_iff.2 fun some =>
    absurd (parked.symm.trans (desel some).1) (by decide)
  have unordered : c ∉ s.plan.serviceOrder := fun mem => by
    have serves := (h.order c).1 mem
    rw [CarRecord.inService_aside (by rw [show (s.car c).role = .parked from parked]; rfl)] at serves
    cases serves
  have own := State.updCar_car_same s c fun r => { r with role := .service, powered := true }
  refine State.RecordsAgree.noticeCar ?_ c .selected
  refine h.one on own rfl rfl
    (fun d ne => State.updCar_car_ne s (fun r => { r with role := .service, powered := true }) ne) rfl ?_
    (fun other => (h.awaits c other on).moved role.2.2 rfl rfl rfl noDesel)
    (List.Nodup.append h.orderOnce (List.nodup_singleton c) (by simpa using unordered))
    (fun d ne => by simp [ne]) (by simp [CarRecord.inService]) (.refl _) ?_ (.refl _)
    fun queued => absurd queued (h.not_queued state)
  · rw [h.generator role]
    exact .of_running ⟨by simp, by simp, by simp⟩ preLoss agrees.linkTimer
      ⟨fun some => absurd (parked.symm.trans (slot.1 some)) (by decide), fun e => by cases e⟩
      (fun some => absurd (parked.symm.trans (timer some)) (by decide)) (fun waits => absurd waits state)
      fun some => absurd (noDesel.symm.trans some) (by decide)
  · rintro ⟨e, he, rfl⟩
    exact absurd (parked.symm.trans (h.listHeld e he).1) (by decide)

theorem orderToLand (h : s.RecordsAgree x) (on : s.configured c = true) (k : VictimKind) (n : Nat) :
    (orderToLand c k n s).RecordsAgree x := by
  have ordered := (h.edit (c := c) (f := fun r => { r with trip := { r.trip with shedOrdered := true } })
    on (fun _ => rfl) fun _ => rfl).noticeCar c .shed
  exact ordered.parts rfl rfl

/-- A waiting trip of a configured car may be started (R68). -/
theorem grant (h : s.RecordsAgree x) (on : s.configured c = true) (out : c ∉ s.queue.entries)
    (waits : (s.trip c).state = .waiting) (running : s.plan.phase.generator = true) :
    (s.updCar c CarRecord.granted).RecordsAgree x := by
  have agrees := h.cars c on
  refine h.updCar on { agrees with
    mains := fun off => absurd (running.symm.trans off) (by decide)
    waits := fun waits => by cases waits
    pendDesel := fun some => ⟨(agrees.pendDesel some).1, fun waits => by cases waits⟩ }
    (fun _ => ⟨fun _ => .inl rfl, fun _ => rfl, fun _ => .inl rfl⟩) rfl ?_ fun queued => absurd queued out
  rintro ⟨e, he, rfl⟩
  exact h.listHeld e he

theorem removeEntry_updCar (c : CarIx) (f : CarRecord → CarRecord) (s : State) :
    (Machine.removeEntry c (s.updCar c f)) = (Machine.removeEntry c s).updCar c f := by
  rw [Machine.removeEntry, Machine.removeEntry]
  show Machine.setEntries (s.queue.entries.filter fun d => d != c) (s.updCar c f) = _
  generalize s.queue.entries.filter (fun d => d != c) = l
  simp only [Machine.setEntries, apply_ite (fun t : State => t.updCar c f)]
  rfl

/-- A queued car's trip is started (R68). -/
theorem carGrant (h : s.RecordsAgree x) (queued : c ∈ s.queue.entries)
    (running : s.plan.phase.generator = true) : (carGrant c s).RecordsAgree x := by
  have waits := h.queue c queued
  have on := h.configured_of_trip (c := c) (by rw [waits]; decide)
  have plan : (Machine.removeEntry c s).plan = s.plan := setEntries_plan _ s
  have granted : ((Machine.removeEntry c s).updCar c CarRecord.granted).RecordsAgree x := by
    refine (h.removeEntry c).grant ?_ (not_mem_removeEntry s c) ?_ (by rw [plan]; exact running)
    · rw [State.configured, (removeEntry_only (.refl s) c).store]; exact on
    · rw [State.trip, removeEntry_car]; exact waits
  rw [← removeEntry_updCar] at granted
  unfold Machine.carGrant
  refine State.RecordsAgree.noticeCar ?_ c .permit
  exact granted.parts rfl rfl

theorem move (h : s.RecordsAgree x) (m : Move s t) : t.RecordsAgree x := by
  have landed {d : CarIx} (runs : (s.trip d).state = .running) (k : VictimKind) (n : Nat) :
      (Machine.orderToLand d k n s).RecordsAgree x :=
    h.orderToLand (h.configured_of_trip (by rw [runs]; decide)) k n
  cases m with
  | call e rest list can => exact h.call list
  | endRecall ended => exact h.endRecall (recallOver_phase ended)
  | overcommitBegins =>
    have begun : State.RecordsAgree x { s with
        account := { s.account with overcommit := .holding }
        shed := { s.shed with state := .active } } := h.parts rfl rfl
    exact (begun.noticeSupply .overcommit).noticePanel .overcommit
  | overcommitEnds =>
    have ended : State.RecordsAgree x { s with account := { s.account with overcommit := .none } } :=
      h.parts rfl rfl
    exact ((ended.noticeSupply .overEnd).noticePanel .overEnd).parts rfl rfl
  | drop d r => exact h.dropEntry d r
  | deselect d f holds victim => exact h.deselect (idleVictim_some victim).1.1
  | land d role f holds which victim => exact landed (landVictim_some victim).1.2.2.1 _ _
  | landReverse d holds victim => exact landed (reverseVictim_some victim).2.2.1 _ _
  | select d allowed can => exact h.selectCar (canSelect_parked can)
  | carGrant d opened allowed candidate =>
    refine h.carGrant (candidates_subset candidate) ?_
    rcases ((carGrantAllowed_iff s).1 allowed).1 with e | e <;> rw [e] <;> rfl
  | panelGrant e =>
    have held : State.RecordsAgree x { s with gate := { s.gate with
        pendingClaim := none, heldClaim := some e, state := .panelStart, holder := .panel
        panelTimer := s.startTimer (tPstart s.store.active) } } := h.parts rfl rfl
    exact held.noticePanel .panelGrant
  | draw n => exact h.parts rfl rfl

theorem moves (h : s.RecordsAgree x) (m : Moves s t) : t.RecordsAgree x :=
  Moves.keeps (P := State.RecordsAgree x) (fun _ _ hs k => hs.move k) m h

theorem closeEvent (h : s.RecordsAgree x) (k : Cause) (s0 : State) :
    (closeEvent k s0 s).RecordsAgree x := h.moves (closeEvent_moves k s0 s)

end State.RecordsAgree

end Sys2Proof.Machine
end

section
/-!
PROOFS. What the moves of a closing event can do to the record of one car (R35, R68, R92, R107, R112, R125, R126).
-/

namespace Sys2Proof.Machine

variable {s t : State} {c d : CarIx}

/-- What one move of a closing event can leave of car c's record. -/
inductive RecordMove (s : State) (c : CarIx) : CarRecord → Prop where
  | same : RecordMove s c (s.car c)
  /-- A listed car is called (R107). -/
  | called (listed : ∃ e ∈ s.plan.recallList, e.car = c) (may : canCall s = true)
      (away : (s.car c).position ≠ .atRecall) (slot : Nat) (timer : Timer) :
      RecordMove s c { s.car c with
        role := .recall, slotStart := some slot, recallTimer := timer
        trip := { (s.car c).trip with recallOverdue := false } }
  /-- A listed car is called at its recall landing (R107). -/
  | parked (listed : ∃ e ∈ s.plan.recallList, e.car = c) (may : canCall s = true)
      (landed : (s.car c).position = .atRecall) :
      RecordMove s c { s.car c with
        powered := false, role := .parked, recallTimer := none, slotStart := none }
  /-- The re-check drops a waiting entry (R92). -/
  | dropped (waits : (s.trip c).state = .waiting) (reason : DropReason) :
      RecordMove s c { s.car c with trip := { s.trip c with state := .none, verdict := .dropped reason } }
  /-- The controller deselects an idle service car (R125). -/
  | deselected (may : s.MayPark c) :
      RecordMove s c { (dropEntry c .role s).car c with
        powered := false, role := .parked, recallTimer := none, slotStart := none, pendDesel := false }
  /-- The controller orders a running car to land (R126, R128). -/
  | ordered (runs : (s.trip c).state = .running) (link : (s.car c).link = .up) :
      RecordMove s c { s.car c with trip := { s.trip c with shedOrdered := true } }
  /-- A PARKED car is selected (R112). -/
  | selected (allowed : selectionAllowed s = true) (can : canSelect s c = true) :
      RecordMove s c { s.car c with role := .service, powered := true }
  /-- A queued trip is granted (R68). -/
  | granted (allowed : carGrantAllowed s = true) (queued : c ∈ s.queue.entries) :
      RecordMove s c (s.car c).granted

theorem RecordMove.unchanged {r : CarRecord} (same : r = s.car c) : RecordMove s c r := by
  rw [same]; exact .same

theorem Move.record (m : Move s t) (c : CarIx) : RecordMove s c (t.car c) := by
  cases m with
  | call e rest list can =>
    rw [callCar_car]
    split
    · rename_i same
      have listed : ∃ e ∈ s.plan.recallList, e.car = c := ⟨e, by rw [list]; simp, same.symm⟩
      subst same
      split
      · rename_i landed
        rw [park_car, if_pos rfl]
        exact .parked listed can landed
      · rename_i away
        exact .called listed can away _ _
    · exact .same
  | endRecall ended => exact .unchanged (endRecall_car s c)
  | overcommitBegins was cond => exact .unchanged rfl
  | overcommitEnds was cond => exact .unchanged rfl
  | drop d r waits reason =>
    rw [dropEntry_car]
    split
    · rename_i same; obtain ⟨rfl, waits⟩ := same; exact .dropped waits r
    · exact .same
  | deselect d f holds victim =>
    rw [deselect_car]
    split
    · rename_i same; subst same; exact .deselected (idleVictim_some victim).1
    · exact .same
  | land d role f holds which victim =>
    rw [orderToLand_car]
    split
    · rename_i same; subst same
      obtain ⟨-, link, runs, -⟩ := (landVictim_some victim).1
      exact .ordered runs link
    · exact .same
  | landReverse d holds victim =>
    rw [orderToLand_car]
    split
    · rename_i same; subst same
      obtain ⟨-, link, runs, -⟩ := reverseVictim_some victim
      exact .ordered runs link
    · exact .same
  | select d allowed can room fits =>
    rw [selectCar_car]
    split
    · rename_i same; subst same; exact .selected allowed can
    · exact .same
  | carGrant d opened allowed candidate fits =>
    rw [carGrant_car]
    split
    · rename_i same; subst same; exact .granted allowed (candidates_subset candidate)
    · exact .same
  | panelGrant e opened claim window => exact .unchanged rfl
  | draw n => exact .same

/-- A property of car c's record that no move ends. -/
theorem Moves.record_keeps {P : CarRecord → Prop}
    (step : ∀ (u : State) (r : CarRecord), P (u.car c) → RecordMove u c r → P r) (m : Moves s t)
    (h : P (s.car c)) : P (t.car c) :=
  Moves.keeps (P := fun u => P (u.car c)) (fun u _ hu k => step u _ hu (k.record c)) m h

/-- A pending unavailability goes on waiting for the end of a trip (R62). -/
theorem Moves.pendUnavail (m : Moves s t)
    (h : (s.car c).pendUnavail = true → (s.car c).trip.state.moving = true) :
    (t.car c).pendUnavail = true → (t.car c).trip.state.moving = true := by
  refine m.record_keeps (P := fun r => r.pendUnavail = true → r.trip.state.moving = true)
    (fun u r hu k => ?_) h
  have waits (waiting : (u.trip c).state = .waiting) : (u.car c).pendUnavail ≠ true := fun some => by
    have moves := hu some
    rw [show (u.car c).trip.state = .waiting from waiting] at moves
    cases moves
  cases k with
  | same => exact hu
  | called => exact hu
  | parked => exact hu
  | dropped waiting => exact fun some => absurd some (waits waiting)
  | deselected may =>
    rw [dropEntry_car]
    split
    · rename_i waiting; exact fun some => absurd some (waits waiting.2)
    · exact hu
  | ordered => exact hu
  | selected => exact hu
  | granted => exact fun _ => rfl

end Sys2Proof.Machine
end

section
/-!
PROOFS. The records invariant over the acts of the Car Table, the queue, the gate and the sequencer on one car
(R47 to R63, R68 to R76, R85 to R94, R106 to R109, R114).
-/

namespace Sys2Proof.Machine

theorem dropEntry_role (c d : CarIx) (r : DropReason) (s : State) : (dropEntry c r s).role d = s.role d := by
  rw [State.role, dropEntry_car]
  split
  · rename_i same; rw [same.1]; rfl
  · rfl

/-- A dropped car does not wait. -/
theorem dropEntry_state (c : CarIx) (r : DropReason) (s : State) :
    ((dropEntry c r s).trip c).state ≠ .waiting := by
  rw [dropEntry_trip]
  split
  · exact fun waits => by cases waits
  · rename_i no; exact fun waits => no ⟨rfl, waits⟩

theorem dropEntry_configured (c d : CarIx) (r : DropReason) (s : State) :
    (dropEntry c r s).configured d = s.configured d := by
  rw [State.configured, (dropEntry_only (.refl s) c r).store]; rfl

theorem State.configured_of_store {s t : State} (store : t.store = s.store) (c : CarIx) :
    t.configured c = s.configured c := by
  rw [State.configured, store]; rfl

/-- The role is one of the generator phases with its link: HELD, PARKED, RECALL, SERVICE or UNAVAILABLE. -/
abbrev Role.live (r : Role) : Prop := r ≠ .absent ∧ r ≠ .free ∧ r ≠ .lost

/-- A car's trip that is at rest neither starts nor runs. -/
theorem TripState.still_eq (t : TripState) : t.still = !t.moving := by cases t <;> rfl

namespace State.RecordsAgree

variable {s t : State} {x : Option CarIx} {c : CarIx}

/-! ## The car whose pending effects are unresolved -/

theorem exempt (h : s.RecordsAgree none) (x : Option CarIx) : s.RecordsAgree x :=
  { h with awaits := fun c _ on => h.awaits c (by simp) on }

theorem resolve (h : s.RecordsAgree (some c))
    (awaits : s.configured c = true → (s.car c).Awaits s.plan.phase.generator) :
    s.RecordsAgree none :=
  have all (d : CarIx) (on : s.configured d = true) :
      (s.car d).Awaits s.plan.phase.generator := by
    by_cases same : d = c
    · subst same; exact awaits on
    · exact h.awaits d (by simpa using Ne.symm same) on
  { h with awaits := fun d _ on => all d on }

/-! ## Changes of the phase's timers -/

theorem retime (h : s.RecordsAgree x) (cars : t.cars = s.cars) (ports : t.ports = s.ports)
    (store : t.store = s.store) (queue : t.queue = s.queue)
    (list : t.plan.recallList = s.plan.recallList) (order : t.plan.serviceOrder = s.plan.serviceOrder)
    (generator : t.plan.phase.generator = s.plan.phase.generator) (timed : t.PhaseTimed) :
    t.RecordsAgree x := by
  have car (c : CarIx) : t.car c = s.car c := by rw [State.car, cars]; rfl
  have configured (c : CarIx) : t.configured c = s.configured c := by rw [State.configured, store]; rfl
  constructor
  · intro c; rw [configured, car, State.port, ports]; exact h.absent c
  · intro c; rw [configured, car, generator]; exact h.cars c
  · intro c; rw [configured, car, generator]; exact h.awaits c
  · rw [order]; exact h.orderOnce
  · intro c; rw [order, car]; exact h.order c
  · rw [list]; exact h.listOnce
  · intro e; rw [list, State.role, car]; exact h.listHeld e
  · intro c; rw [queue, State.trip, car]; exact h.queue c
  · exact timed

theorem clearanceCheck (h : s.RecordsAgree x) : (clearanceCheck s).RecordsAgree x := by
  unfold Machine.clearanceCheck
  split
  · rename_i due
    refine State.RecordsAgree.noticeSupply ?_ .clear
    refine h.retime rfl rfl rfl rfl rfl rfl rfl ?_
    exact ⟨fun _ => due.1, fun some => (by cases some), h.timed.settleTimer, h.timed.recallDone,
      h.timed.service⟩
  · exact h

/-! ## Leaving a role -/

/-- A car leaves the plan for HELD, PARKED or UNAVAILABLE. -/
theorem leaveAside (h : s.RecordsAgree x) {f : CarRecord → CarRecord} (on : s.configured c = true)
    (running : s.plan.phase.generator = true) (state : (s.trip c).state ≠ .waiting)
    (role : (f (s.car c)).role.aside = true) (preLoss : (f (s.car c)).preLoss = none)
    (link : (f (s.car c)).link = (s.car c).link ∧ (f (s.car c)).linkTimer = (s.car c).linkTimer)
    (trip : (f (s.car c)).trip.state = (s.trip c).state) (desel : (f (s.car c)).pendDesel = false)
    (awaits : x ≠ some c → (f (s.car c)).Awaits s.plan.phase.generator) :
    (leavePlan c (s.updCar c f)).RecordsAgree x := by
  refine h.leave on (h.not_queued state) ?_ (fun other => ?_) (CarRecord.inService_aside role)
  · rw [running]
    refine .of_aside role preLoss ?_ ⟨rfl, rfl⟩ (fun waits => state (trip.symm.trans waits)) desel
    show (f (s.car c)).linkTimer.isSome = true ↔ (f (s.car c)).link = .up
    rw [link.1, link.2]
    exact (h.cars c on).linkTimer
  · obtain ⟨excl, unavail, desel⟩ := awaits other
    exact ⟨excl, unavail, desel⟩

theorem makeUnavailable (h : s.RecordsAgree (some c)) (role : (s.role c).live)
    (state : (s.trip c).state ≠ .waiting) : (makeUnavailable c s).RecordsAgree none := by
  rw [makeUnavailable_eq]
  refine (h.leaveAside (h.configured_of_role role.1) (h.generator role) state rfl
    (h.preLoss_none role.2.2) ⟨rfl, rfl⟩ rfl rfl fun other => absurd rfl other).resolve fun _ => ?_
  rw [leavePlan_car, if_pos rfl, State.updCar_car_same]
  exact .of_none rfl rfl rfl

theorem withdrawCar (h : s.RecordsAgree (some c)) (role : (s.role c).live) :
    (withdrawCar c s).RecordsAgree none :=
  (h.dropEntry c .role).makeUnavailable (by rw [dropEntry_role]; exact role) (dropEntry_state c .role s)

theorem exempt_own (h : s.RecordsAgree x) (exempted : x = none ∨ x = some c) :
    s.RecordsAgree (some c) := by
  rcases exempted with rfl | rfl
  · exact h.exempt _
  · exact h

/-- An exclusion that arrives is dealt with (R60). -/
theorem applyExclusion (h : s.RecordsAgree x) (exempted : x = none ∨ x = some c) :
    (applyExclusion c s).RecordsAgree x := by
  have withdrawn (role : (s.role c).live) : (Machine.withdrawCar c s).RecordsAgree x :=
    ((h.exempt_own exempted).withdrawCar role).exempt _
  have marked (role : s.role c ≠ .absent)
      (waits : (s.trip c).state.moving = true ∨ s.role c = .lost ∧ s.plan.phase.generator = true) :
      (s.updCar c fun r => { r with pendExcl := true }).RecordsAgree x := by
    have on := h.configured_of_role role
    have agrees := h.cars c on
    refine h.updCar on { agrees with } (fun other => ?_) rfl ?_ (h.queue c)
    · obtain ⟨-, unavail, desel⟩ := h.awaits c other on
      exact ⟨fun _ => waits, unavail, desel⟩
    · rintro ⟨e, he, rfl⟩; exact h.listHeld e he
  unfold Machine.applyExclusion
  split
  · rename_i role; exact withdrawn (by rw [role]; decide)
  · rename_i role; exact withdrawn (by rw [role]; decide)
  · rename_i role
    split
    · exact withdrawn (by rw [role]; decide)
    · rename_i moves; exact marked (by rw [role]; decide) (.inl (by simpa [TripState.still_eq] using moves))
  · rename_i role
    split
    · exact withdrawn (by rw [role]; decide)
    · rename_i moves; exact marked (by rw [role]; decide) (.inl (by simpa [TripState.still_eq] using moves))
  · rename_i role
    split
    · rename_i running; exact marked (by rw [role]; decide) (.inr ⟨role, running⟩)
    · exact h
  all_goals exact h

theorem parkingCheck (h : s.RecordsAgree x) : (parkingCheck c s).RecordsAgree x := by
  unfold Machine.parkingCheck
  split
  · rename_i idle
    obtain ⟨role, state⟩ := idle
    have live : (s.role c).live := by rw [role]; decide
    have still : (s.trip c).state ≠ .waiting := by rw [state]; decide
    have on := h.configured_of_role live.1
    have parked : (Machine.park c s).RecordsAgree x := h.park live still (by rw [role]; decide)
    have noDesel : (s.car c).pendDesel = false := Bool.eq_false_iff.2 fun some =>
      absurd (role.symm.trans (((h.cars c on).of_role live.2.2).2.2.2 some).1) (by decide)
    split
    · split
      · exact parked
      · exact h
    · split
      · exact parked
      · exact h
    · split
      · exact parked
      · exact h.leaveAside on (h.generator live) still rfl (h.preLoss_none live.2.2) ⟨rfl, rfl⟩ rfl noDesel
          fun other => (h.awaits c other on).moved live.2.2 rfl rfl rfl noDesel
    · exact h
  · exact h

theorem deselectionCheck (h : s.RecordsAgree x) : (deselectionCheck c s).RecordsAgree x := by
  unfold Machine.deselectionCheck
  split
  · rename_i due; exact h.deselect due.1
  · exact h

/-! ## Coming back into the plan -/

theorem insertRecall (h : s.RecordsAgree x) (held : s.role c = .held)
    (sound : (s.car c).recallFailed = false) (unlisted : ∀ e ∈ s.plan.recallList, e.car ≠ c) :
    (insertRecall c s).RecordsAgree x := by
  have perm := insertBy_perm (recallBefore s.store.active) ⟨c, tierOf (s.car c)⟩ s.plan.recallList
  refine { h with
    listOnce := (perm.map _).nodup_iff.2 (List.nodup_cons.2 ⟨?_, h.listOnce⟩)
    listHeld := fun e he => ?_
    timed := h.timed.of_timing rfl }
  · rintro mem
    obtain ⟨e, he, same⟩ := List.mem_map.1 mem
    exact unlisted e he same
  · rcases List.mem_cons.1 (perm.mem_iff.1 he) with same | he
    · rw [same]; exact ⟨held, sound⟩
    · exact h.listHeld e he

theorem joinPlan (h : s.RecordsAgree x) (held : s.role c = .held)
    (sound : (s.car c).recallFailed = false) (unlisted : ∀ e ∈ s.plan.recallList, e.car ≠ c) :
    (joinPlan c s).RecordsAgree x := by
  unfold Machine.joinPlan
  split
  · exact h.park (by rw [held]; decide) (h.not_waiting (by rw [held]; decide)) (by rw [held]; decide)
  · exact h.insertRecall held sound unlisted

theorem handBack (h : s.RecordsAgree x) (held : s.role c = .held)
    (unlisted : ∀ e ∈ s.plan.recallList, e.car ≠ c) : (handBack c s).RecordsAgree x := by
  unfold Machine.handBack
  split
  · rename_i due
    exact (h.joinPlan held due.2 unlisted).moves (runCalls_moves _)
  · exact h

/-- An UNAVAILABLE car becomes HELD and is handed back (R57). -/
theorem readmit (h : s.RecordsAgree x) (was : s.role c = .unavailable) :
    (Machine.handBack c (s.updCar c fun r => { r with role := .held })).RecordsAgree x := by
  have live : (s.role c).live := by rw [was]; decide
  have on := h.configured_of_role live.1
  have agrees := h.cars c on
  obtain ⟨preLoss, slot, timer, desel⟩ := agrees.of_role live.2.2
  have unlisted := h.not_listed (c := c) (.inl (by rw [was]; decide))
  have state := h.not_waiting (c := c) (by rw [was]; decide)
  have noDesel : (s.car c).pendDesel = false := Bool.eq_false_iff.2 fun some =>
    absurd (was.symm.trans (desel some).1) (by decide)
  have away : (s.car c).inService = false := CarRecord.inService_aside (by
    rw [show (s.car c).role = .unavailable from was]; rfl)
  have held : (s.updCar c fun r => { r with role := .held }).RecordsAgree x := by
    refine h.updCar on ?_ (fun other => (h.awaits c other on).moved live.2.2 rfl rfl rfl noDesel) away.symm
      ?_ fun queued => absurd queued (h.not_queued state)
    · rw [h.generator live]
      refine .of_aside rfl preLoss agrees.linkTimer ⟨?_, ?_⟩ state noDesel
      · exact Option.not_isSome_iff_eq_none.1 fun some =>
          absurd (was.symm.trans (slot.1 some)) (by decide)
      · exact Option.not_isSome_iff_eq_none.1 fun some =>
          absurd (was.symm.trans (timer some)) (by decide)
    · rintro ⟨e, he, same⟩; exact absurd same (unlisted e he)
  refine held.handBack ?_ unlisted
  rw [State.role, State.updCar_car_same]

/-! ## The end of a trip -/

/-- Stage 1 of a trip's end. What waited for the end has nothing left to wait for. -/
theorem endTrip (h : s.RecordsAgree x) (exempted : x = none ∨ x = some c) (on : s.configured c = true)
    (state : (s.trip c).state ≠ .waiting) : (endTrip c s).RecordsAgree (some c) := by
  have h := h.exempt_own exempted
  have agrees := h.cars c on
  have ended : (s.updTrip c fun t => { t with state := .none }).RecordsAgree (some c) := by
    refine h.updCar on { agrees with
        mains := fun off => ⟨(agrees.mains off).1, rfl, (agrees.mains off).2.2⟩
        waits := fun waits => by cases waits
        pendDesel := fun some => ⟨(agrees.pendDesel some).1, fun waits => by cases waits⟩ }
      (fun other => absurd rfl other) rfl ?_ fun queued => absurd queued (h.not_queued state)
    rintro ⟨e, he, rfl⟩; exact h.listHeld e he
  have window {u : State} (hu : u.RecordsAgree (some c)) :
      (endWindowOf c u).RecordsAgree (some c) := by
    unfold endWindowOf
    split
    · exact hu.parts rfl rfl
    · exact hu
  have left := window ended
  exact left.parts rfl rfl

theorem dropVictim (h : s.RecordsAgree x) : (dropVictim c s).RecordsAgree x := h.parts rfl rfl

end State.RecordsAgree

end Sys2Proof.Machine
end

section
/-!
PROOFS. The records invariant over the return of a LOST car and over a STATE (R47 to R49, R54, R55, R57, R61, R63).
-/

namespace Sys2Proof.Machine

variable {s t : State} {c : CarIx}

/-! ## A frozen trip's end -/

theorem endTrip_plan (c : CarIx) (s : State) : (endTrip c s).plan = s.plan := by
  have window (t : State) : (endWindowOf c t).plan = t.plan := by
    unfold endWindowOf
    split <;> rfl
  exact window _

theorem endTrip_car (c d : CarIx) (s : State) : (endTrip c s).car d =
    if d = c then { s.car c with trip := { s.trip c with state := .none } } else s.car d := by
  have window (t : State) : (endWindowOf c t).car d = t.car d := by
    unfold endWindowOf
    split <;> rfl
  refine (window _).trans ?_
  rw [State.updTrip, State.updCar_car]
  split
  · rename_i same; rw [same]; rfl
  · rfl

/-- What the release of a LOST car's frozen record leaves of it (R54, R58). -/
def CarRecord.released (role : Role) (r : CarRecord) : CarRecord :=
  { r with
    trip := { r.trip with state := .none }, powered := false, role := role, preLoss := none
    recallTimer := none, slotStart := none, pendExcl := false, pendUnavail := false, pendDesel := false }

/-- Out of the role, the pre-loss role and the pending effects. -/
def CarRecord.detached (role : Role) (r : CarRecord) : CarRecord :=
  { r with
    powered := false, role := role, preLoss := none, pendExcl := false, pendUnavail := false
    pendDesel := false }

theorem endFrozen_eq (c : CarIx) (role : Role) (s : State) : endFrozen c role s =
    clearanceCheck (leavePlan c ((dropVictim c (endTrip c s)).updCar c (.detached role))) := by
  show clearanceCheck ((leavePlan c ((dropVictim c (endTrip c s)).updCar c fun r =>
      { r with powered := false, role := role, preLoss := none })).updCar c fun r =>
      { r with pendExcl := false, pendUnavail := false, pendDesel := false }) = _
  rw [leavePlan_updCar]
  · rfl
  · exact fun _ => rfl

theorem clearanceCheck_car (s : State) (c : CarIx) : (clearanceCheck s).car c = s.car c := by
  unfold clearanceCheck
  split <;> rfl

theorem clearanceCheck_list (s : State) : (clearanceCheck s).plan.recallList = s.plan.recallList := by
  unfold clearanceCheck
  split <;> rfl

theorem endFrozen_car (c d : CarIx) (role : Role) (s : State) : (endFrozen c role s).car d =
    if d = c then (s.car c).released role else s.car d := by
  have ended (e : CarIx) : (dropVictim c (endTrip c s)).car e = (endTrip c s).car e := rfl
  rw [endFrozen_eq, clearanceCheck_car, leavePlan_car]
  split
  · rw [State.updCar_car_same, ended, endTrip_car, if_pos rfl]; rfl
  · rename_i ne; rw [State.updCar_car_ne _ _ ne, ended, endTrip_car, if_neg ne]

theorem endFrozen_list (c : CarIx) (role : Role) (s : State) :
    (endFrozen c role s).plan.recallList = s.plan.recallList.filter fun e => e.car != c := by
  rw [endFrozen_eq, clearanceCheck_list]
  show (endTrip c s).plan.recallList.filter _ = _
  rw [endTrip_plan]

theorem returnRole_cases (r : CarRecord) :
    r.returnRole = .unavailable ∨ r.returnRole = .parked ∨ r.returnRole = .held := by
  unfold CarRecord.returnRole
  split
  · exact .inl rfl
  · split
    · exact .inr (.inl rfl)
    · exact .inr (.inr rfl)

/-! ## A pending exclusion met on a return -/

/-- What a car that is not LOST may still wait for: the end of its trip (R62, R63). -/
def CarRecord.AwaitsTrip (r : CarRecord) : Prop :=
  r.role ≠ .lost ∧ (r.pendExcl = true → r.trip.state.moving = true) ∧
    (r.pendUnavail = true → r.trip.state.moving = true)

theorem withdrawCar_car (c d : CarIx) (s : State) : (withdrawCar c s).car d = if d = c then
    { (dropEntry c .role s).car c with
      powered := false, role := .unavailable, recallTimer := none, slotStart := none, pendExcl := false
      pendUnavail := false, pendDesel := false } else s.car d := by
  rw [withdrawCar, makeUnavailable_eq, leavePlan_car]
  split
  · rw [State.updCar_car_same]
  · rename_i ne; rw [State.updCar_car_ne _ _ ne, dropEntry_car, if_neg fun k => ne k.1]

theorem Moves.role_ne_lost (m : Moves s t) (h : s.role c ≠ .lost) : t.role c ≠ .lost := by
  refine m.record_keeps (P := fun r => r.role ≠ .lost) (fun u r hu k => ?_) h
  cases k with
  | same => exact hu
  | called => exact fun k => by cases k
  | parked => exact fun k => by cases k
  | dropped => exact hu
  | deselected => exact fun k => by cases k
  | ordered => exact hu
  | selected => exact fun k => by cases k
  | granted => exact hu

theorem withdrawCar_awaits (s : State) (c : CarIx) : ((withdrawCar c s).car c).AwaitsTrip := by
  rw [withdrawCar_car, if_pos rfl]
  refine ⟨?_, ?_, ?_⟩ <;> exact fun k => by cases k

theorem heldExclusion_awaits (role : s.role c ≠ .lost)
    (unavail : (s.car c).pendUnavail = true → (s.trip c).state.moving = true) :
    ((heldExclusion c s).car c).AwaitsTrip := by
  have cleared : ∀ b : Bool, (b = true → (s.trip c).state.moving = true) →
      ((s.updCar c fun r => { r with pendExcl := b }).car c).AwaitsTrip := by
    intro b hb
    rw [State.updCar_car_same]
    exact ⟨role, hb, unavail⟩
  unfold heldExclusion
  split
  · have kept := cleared false fun some => by cases some
    have marked (moves : (s.trip c).state.moving = true) :
        (((s.updCar c fun r => { r with pendExcl := false }).updCar c
          fun r => { r with pendExcl := true }).car c).AwaitsTrip := by
      rw [State.updCar_updCar]
      exact cleared true fun _ => moves
    have moving (moves : ¬ ((s.updCar c fun r => { r with pendExcl := false }).trip c).state.still = true) :
        (s.trip c).state.moving = true := by
      rw [State.trip, State.updCar_car_same] at moves
      simpa [TripState.still_eq, State.trip] using moves
    unfold applyExclusion
    split
    · exact withdrawCar_awaits ..
    · exact withdrawCar_awaits ..
    · split
      · exact withdrawCar_awaits ..
      · rename_i moves; exact marked (moving moves)
    · split
      · exact withdrawCar_awaits ..
      · rename_i moves; exact marked (moving moves)
    · rename_i lost
      rw [State.role, State.updCar_car_same] at lost
      exact absurd lost role
    all_goals exact kept
  · rename_i no
    exact ⟨role, fun some => absurd some no, unavail⟩

theorem joinPlan_car (c d : CarIx) (s : State) : (joinPlan c s).car d =
    if (s.car c).position = .atRecall then (park c s).car d else s.car d := by
  unfold joinPlan
  split <;> rfl

theorem handBack_unavail
    (h : (s.car c).pendUnavail = true → (s.trip c).state.moving = true) :
    ((handBack c s).car c).pendUnavail = true → ((handBack c s).trip c).state.moving = true := by
  unfold handBack
  split
  · refine (runCalls_moves _).pendUnavail ?_
    rw [joinPlan_car, park_car, if_pos rfl]
    split <;> exact h
  · exact h

theorem handBack_role_ne_lost (h : s.role c ≠ .lost) : (handBack c s).role c ≠ .lost := by
  unfold handBack
  split
  · refine (runCalls_moves _).role_ne_lost ?_
    rw [State.role, joinPlan_car, park_car, if_pos rfl]
    split
    · simp
    · exact h
  · exact h

/-- A LOST car in a generator phase has a role to return to (R51, R102). -/
theorem CarRecord.Agrees.preLoss_some {r : CarRecord} {g : Bool} (h : r.Agrees g) (running : g = true)
    (lost : r.role = .lost) : ∃ role, r.preLoss = some role ∧ role.mayReturn = true := by
  have some := h.preLossRole running lost
  cases e : r.preLoss
  · rw [e] at some; cases some
  · rename_i role; rw [e] at some; exact ⟨role, rfl, some⟩

/-- In START and MAINS a car that is given role FREE keeps what R41 and R104 ask of it (R56, R58). -/
theorem CarRecord.Agrees.freed {r : CarRecord} (h : r.Agrees false) :
    CarRecord.Agrees false { r with role := .free, preLoss := none } := by
  obtain ⟨-, state, away, serves⟩ := h.mains rfl
  have slot : r.slotStart = none := Option.not_isSome_iff_eq_none.1 fun some =>
    absurd (away.symm.trans (h.recallSlot.1 some)) (by decide)
  have timer : r.recallTimer = none := Option.not_isSome_iff_eq_none.1 fun some =>
    absurd (away.symm.trans (h.recallTimer some)) (by decide)
  have desel : r.pendDesel = false := Bool.eq_false_iff.2 fun some =>
    absurd (serves.symm.trans (h.pendDesel some).1) (by decide)
  exact .of_mains (.inl ⟨rfl, rfl⟩) (by simp) h.linkTimer ⟨slot, timer⟩ state desel

/-- In START and MAINS no effect is pending. -/
theorem CarRecord.Agrees.none_pending {r : CarRecord} (h : r.Agrees false) (awaits : r.Awaits false) :
    r.pendExcl = false ∧ r.pendUnavail = false ∧ r.pendDesel = false := by
  obtain ⟨-, state, -, serves⟩ := h.mains rfl
  have still : ¬ r.trip.state.moving = true := by rw [state]; decide
  refine ⟨Bool.eq_false_iff.2 fun some => ?_, Bool.eq_false_iff.2 fun some =>
    still (awaits.pendUnavail some), Bool.eq_false_iff.2 fun some =>
    absurd (serves.symm.trans (h.pendDesel some).1) (by decide)⟩
  exact (awaits.pendExcl some).elim still fun lost => by cases lost.2

theorem Role.mayReturn_cases {r : Role} (h : r.mayReturn = true) :
    r = .recall ∨ r = .service ∨ r.aside = true := by
  cases r <;> simp_all [Role.mayReturn, Role.aside]

namespace State.RecordsAgree

variable {x : Option CarIx}

/-- A LOST car is released in a generator phase: it becomes HELD, PARKED or UNAVAILABLE (R54, R58). -/
theorem endFrozen (h : s.RecordsAgree none) (lost : s.role c = .lost)
    (running : s.plan.phase.generator = true) {role : Role} (aside : role.aside = true) :
    (endFrozen c role s).RecordsAgree none := by
  have on := h.configured_of_role (c := c) (by rw [lost]; decide)
  have still := ((h.cars c on).of_preLoss lost).2.2.2
  have ended := (h.endTrip (.inl rfl) on still).dropVictim (c := c)
  have store : (Machine.dropVictim c (Machine.endTrip c s)).store = s.store :=
    (dropVictim_only (endTrip_only (.refl s) c) c).store
  have state : ((Machine.dropVictim c (Machine.endTrip c s)).trip c).state = .none := by
    show ((Machine.endTrip c s).car c).trip.state = .none
    rw [endTrip_car, if_pos rfl]
  rw [endFrozen_eq]
  refine State.RecordsAgree.clearanceCheck (State.RecordsAgree.resolve (c := c) ?_ fun _ => ?_)
  · refine ended.leaveAside (f := .detached role) ?_ ?_ (by rw [state]; decide) aside rfl ⟨rfl, rfl⟩ rfl rfl
      fun other => absurd rfl other
    · rw [State.configured, store]; exact on
    · show (Machine.endTrip c s).plan.phase.generator = true
      rw [endTrip_plan]; exact running
  · rw [leavePlan_car, if_pos rfl, State.updCar_car_same]
    exact .of_none rfl rfl rfl

theorem returnStill (h : s.RecordsAgree none) (lost : s.role c = .lost)
    (running : s.plan.phase.generator = true) : (returnStill c s).RecordsAgree none := by
  have aside : (s.car c).returnRole.aside = true := by
    rcases returnRole_cases (s.car c) with e | e | e <;> rw [e] <;> rfl
  have freed := h.endFrozen lost running aside
  unfold Machine.returnStill
  dsimp only
  split
  · rename_i held
    refine freed.handBack ?_ ?_
    · rw [State.role, endFrozen_car, if_pos rfl]; exact held
    · rw [endFrozen_list]; exact not_listed_filter c _
  · exact freed

theorem heldExclusion (h : s.RecordsAgree (some c)) : (heldExclusion c s).RecordsAgree (some c) := by
  unfold Machine.heldExclusion
  split
  · have cleared : (s.updCar c fun r => { r with pendExcl := false }).RecordsAgree (some c) := by
      by_cases on : s.configured c = true
      · have agrees := h.cars c on
        refine h.updCar on { agrees with } (fun other => absurd rfl other) rfl ?_ (h.queue c)
        rintro ⟨e, he, rfl⟩; exact h.listHeld e he
      · rename_i excl
        rw [(h.absent c (Bool.not_eq_true _ ▸ on)).1] at excl
        cases excl
    exact cleared.applyExclusion (.inr rfl)
  · exact h

/-- The deselection check deals with the last of a car's pending effects (R114). -/
theorem deselected (h : s.RecordsAgree (some c)) (awaits : (s.car c).AwaitsTrip) :
    (Machine.deselectionCheck c s).RecordsAgree none := by
  obtain ⟨role, excl, unavail⟩ := awaits
  refine h.deselectionCheck.resolve fun on => ?_
  unfold Machine.deselectionCheck at on ⊢
  split
  · rename_i due
    obtain ⟨serves, -, state⟩ := due
    have idle : ¬ (s.car c).trip.state.moving = true := by
      rw [show (s.car c).trip.state = .none from state]; decide
    have still : (Machine.dropEntry c .role s).car c = s.car c := by
      rw [dropEntry_car, if_neg]
      rw [state]; exact fun w => by cases w.2
    rw [deselect_car, if_pos rfl, still]
    exact ⟨fun some => absurd (excl some) idle, fun some => absurd (unavail some) idle,
      fun some => by cases some⟩
  · rename_i kept
    rw [if_neg kept] at on
    have agrees := h.cars c on
    refine ⟨fun some => .inl (excl some), unavail, fun some => .inl ?_⟩
    obtain ⟨serving, waiting⟩ := agrees.pendDesel some
    have serves : s.role c = .service := (CarRecord.inService_of_not_lost role).1 serving
    have moves : (s.trip c).state ≠ .none := fun state => kept ⟨serves, some, state⟩
    have waits : (s.trip c).state ≠ .waiting := waiting
    show (s.trip c).state.moving = true
    cases state : (s.trip c).state
    · exact absurd state moves
    · exact absurd state waits
    · rfl
    · rfl

theorem returnMoving (h : s.RecordsAgree none) (lost : s.role c = .lost)
    (running : s.plan.phase.generator = true) : (returnMoving c s).RecordsAgree none := by
  have on := h.configured_of_role (c := c) (by rw [lost]; decide)
  have agrees := h.cars c on
  have awaits := h.awaits c (by simp) on
  obtain ⟨slot, timer, desel, state⟩ := agrees.of_preLoss lost
  obtain ⟨role, preLoss, mayReturn⟩ := agrees.preLoss_some running lost
  have live : role.live := by
    rcases Role.mayReturn_cases mayReturn with e | e | e
    · rw [e]; decide
    · rw [e]; decide
    · rcases (Role.aside_iff _).1 e with e | e | e <;> rw [e] <;> decide
  rw [preLoss] at slot timer desel
  unfold Machine.returnMoving
  rw [preLoss, Option.getD_some]
  dsimp only
  generalize back : (s.updCar c fun r => { r with role := role, preLoss := none }) = t
  have own : t.car c = { s.car c with role := role, preLoss := none } := by
    rw [← back, State.updCar_car_same]
  have unlisted := h.not_listed (c := c) (.inl (by rw [lost]; decide))
  have restored : t.RecordsAgree (some c) := by
    rw [← back]
    refine (h.exempt _).updCar on ?_ (fun other => absurd rfl other) ?_ ?_
      fun queued => absurd queued (h.not_queued state)
    · rw [running]
      refine .of_running ⟨live.1, live.2.1, live.2.2⟩ rfl agrees.linkTimer (slot.trans (by simp))
        (fun some => by simpa using timer some) (fun waits => absurd waits state)
        fun some => ⟨by simpa using desel some, state⟩
    · have was : (s.car c).role = .lost := lost
      simp [CarRecord.inService, was, preLoss]
    · rintro ⟨e, he, same⟩; exact absurd same (unlisted e he)
  have role_ne : t.role c ≠ .lost := by rw [State.role, own]; exact live.2.2
  have unavail : (t.car c).pendUnavail = true → (t.trip c).state.moving = true := by
    rw [State.trip, own]; exact awaits.pendUnavail
  split
  · rename_i held
    refine (restored.handBack ?_ ?_).heldExclusion.deselected
      (heldExclusion_awaits (handBack_role_ne_lost role_ne) (handBack_unavail unavail))
    · rw [State.role, own]; exact held
    · rw [← back]; exact unlisted
  · exact restored.heldExclusion.deselected (heldExclusion_awaits role_ne unavail)

theorem resolveReturn (h : s.RecordsAgree none) : (resolveReturn c s).RecordsAgree none := by
  unfold Machine.resolveReturn
  split
  · rename_i due
    split
    · exact h.returnStill due.1 due.2
    · exact h.returnMoving due.1 due.2
  · exact h

theorem nowAvailable (h : s.RecordsAgree none) (on : s.configured c = true) :
    (nowAvailable c s).RecordsAgree none := by
  have agrees := h.cars c on
  obtain ⟨excl, -, desel⟩ := h.awaits c (by simp) on
  have cleared : (s.updCar c fun r => { r with pendUnavail := false }).RecordsAgree none := by
    refine h.updCar on { agrees with } (fun _ => ⟨excl, fun some => (by cases some), desel⟩) rfl ?_ (h.queue c)
    rintro ⟨e, he, rfl⟩; exact h.listHeld e he
  unfold Machine.nowAvailable
  dsimp only
  split
  · rename_i due; exact cleared.readmit due.1
  · exact cleared

theorem notAvailable (h : s.RecordsAgree none) : (notAvailable c s).RecordsAgree none := by
  have withdrawn (role : (s.role c).live) : (Machine.withdrawCar c s).RecordsAgree none :=
    (h.exempt _).withdrawCar role
  have marked (role : s.role c ≠ .absent) (moves : (s.trip c).state.moving = true) :
      (s.updCar c fun r => { r with pendUnavail := true }).RecordsAgree none := by
    have on := h.configured_of_role role
    have agrees := h.cars c on
    obtain ⟨excl, -, desel⟩ := h.awaits c (by simp) on
    refine h.updCar on { agrees with }
      (fun _ => ⟨excl, fun _ => moves, desel⟩) rfl ?_ (h.queue c)
    rintro ⟨e, he, rfl⟩; exact h.listHeld e he
  unfold Machine.notAvailable
  split
  · rename_i role; exact withdrawn (by rw [role]; decide)
  · rename_i role; exact withdrawn (by rw [role]; decide)
  · rename_i role
    split
    · exact withdrawn (by rw [role]; decide)
    · rename_i moves
      exact marked (by rw [role]; decide) (by simpa [TripState.still_eq] using moves)
  · rename_i role
    split
    · exact withdrawn (by rw [role]; decide)
    · rename_i moves
      exact marked (by rw [role]; decide) (by simpa [TripState.still_eq] using moves)
  all_goals exact h

theorem motionCheck (h : s.RecordsAgree x) : (motionCheck c s).RecordsAgree x := by
  unfold Machine.motionCheck
  split
  · exact (h.noticePanel .unpermittedMotion).noticeSupply .unpermittedMotion
  · exact h

/-- A complete STATE (R47, R48). -/
theorem takeState (h : s.RecordsAgree none) (on : s.configured c = true) (u : Byte) :
    (takeState c u s).RecordsAgree none := by
  have recorded : (recordStatus c u s).RecordsAgree none := h.edit on (fun _ => rfl) fun _ => rfl
  have resolved := recorded.resolveReturn (c := c)
  have on' : (Machine.resolveReturn c (recordStatus c u s)).configured c = true := by
    rw [State.configured, (resolveReturn_only (.refl (recordStatus c u s)) c).store]; exact on
  have ruled : (availabilityRules c (Machine.resolveReturn c (recordStatus c u s))).RecordsAgree none := by
    unfold availabilityRules
    split
    · exact resolved.nowAvailable on'
    · exact resolved.notAvailable
  exact ruled.motionCheck.parkingCheck

end State.RecordsAgree

end Sys2Proof.Machine
end

section
/-!
PROOFS. The records invariant over the trip requests, the end of a trip, a car's link, inclusion, release, recall
supervision and the gate's windows (R50 to R52, R56, R58 to R60, R68 to R76, R85 to R91, R109).
-/

namespace Sys2Proof.Machine

variable {s t : State} {c : CarIx}

/-- The parking check leaves what a car waits for, and makes none LOST. -/
theorem parkingCheck_awaits (h : (s.car c).AwaitsTrip) : ((parkingCheck c s).car c).AwaitsTrip := by
  have parked : ((park c s).car c).AwaitsTrip := by
    rw [park_car, if_pos rfl]
    exact ⟨fun k => (by cases k), h.2⟩
  unfold parkingCheck
  split
  · split
    · split
      · exact parked
      · exact h
    · split
      · exact parked
      · exact h
    · split
      · exact parked
      · rw [leavePlan_car, if_pos rfl, State.updCar_car_same]
        exact ⟨fun k => (by cases k), h.2⟩
    · exact h
  · exact h

/-- What the stages of a trip's end leave of the car's pending effects (R62, R76). -/
theorem tripEndStages_awaits (role : s.role c ≠ .lost) : ((tripEndStages c s).car c).AwaitsTrip := by
  show ((applyPending c (endTrip c s)).car c).AwaitsTrip
  have own := endTrip_car c c s
  rw [if_pos rfl] at own
  unfold applyPending
  split
  · rw [makeUnavailable_eq, leavePlan_car, if_pos rfl, State.updCar_car_same]
    exact ⟨fun k => (by cases k), fun k => (by cases k), fun k => (by cases k)⟩
  · rename_i none
    obtain ⟨excl, unavail⟩ : ¬ ((endTrip c s).car c).pendExcl = true ∧
        ¬ ((endTrip c s).car c).pendUnavail = true := by simpa using none
    exact ⟨by rw [own]; exact role, fun some => absurd some excl, fun some => absurd some unavail⟩

namespace State.RecordsAgree

variable {x : Option CarIx}

/-! ## The end of a trip -/

theorem tripEndStages (h : s.RecordsAgree none) (role : s.role c ≠ .lost)
    (moves : (s.trip c).state.moving = true) : (tripEndStages c s).RecordsAgree (some c) := by
  have busy : (s.trip c).state ≠ .none ∧ (s.trip c).state ≠ .waiting := by
    cases state : (s.trip c).state <;> rw [state] at moves <;> simp_all [TripState.moving]
  have on := h.configured_of_trip busy.1
  have agrees := h.cars c on
  have live : (s.role c).live := by
    refine ⟨?_, ?_, role⟩ <;> intro same
    all_goals
      have off : s.plan.phase.generator ≠ true := fun running => by
        obtain ⟨free, absent⟩ := agrees.running running
        first | exact absent same | exact free same
      exact busy.1 (agrees.mains (Bool.eq_false_iff.2 off)).2.1
  have ended := h.endTrip (.inl rfl) on busy.2
  have own := endTrip_car c c s
  rw [if_pos rfl] at own
  refine State.RecordsAgree.dropVictim ?_
  unfold applyPending
  split
  · refine ((ended.dropVictim (c := c)).makeUnavailable ?_ ?_).exempt _
    · show ((Machine.endTrip c s).car c).role.live
      rw [own]; exact live
    · show ((Machine.endTrip c s).car c).trip.state ≠ .waiting
      rw [own]; exact fun k => by cases k
  · exact ended

theorem earlyGrant (h : s.RecordsAgree x) (s0 : State) : (earlyGrant s0 s).RecordsAgree x := by
  unfold Machine.earlyGrant
  dsimp only
  split
  · exact h
  · split
    · exact h
    · exact h.moves ((evaluate_moves s).trans (grantIfDue_moves s0 _))

theorem eitherOrder (hs : s.RecordsAgree x) (ht : t.RecordsAgree x) :
    (eitherOrder s t).RecordsAgree x := by
  obtain ⟨n, e | e⟩ := eitherOrder_cases s t
  · rw [e]; exact hs.parts rfl rfl
  · rw [e]; exact ht.parts rfl rfl

/-- A trip ends and the event closes, in either order of parking and grant (R76). -/
theorem tripEnded (h : s.RecordsAgree none) (role : s.role c ≠ .lost)
    (moves : (s.trip c).state.moving = true) : (tripEnded c s).RecordsAgree none := by
  have stages := h.tripEndStages role moves
  have awaits := tripEndStages_awaits role
  have parkedFirst := (stages.parkingCheck (c := c)).deselected (parkingCheck_awaits awaits)
  have grantFirst := ((stages.deselected awaits).earlyGrant s).parkingCheck (c := c)
  unfold Machine.tripEnded
  dsimp only
  split
  · exact (parkedFirst.clearanceCheck.closeEvent {} s).eitherOrder
      (grantFirst.clearanceCheck.closeEvent {} s)
  · exact parkedFirst.clearanceCheck.closeEvent {} s

theorem startFailed (h : s.RecordsAgree none) : (startFailed c s).RecordsAgree none := by
  unfold Machine.startFailed
  split
  · rename_i due; exact h.tripEnded due.1 (by rw [due.2]; rfl)
  · exact h

theorem carStopped (h : s.RecordsAgree none) : (carStopped c s).RecordsAgree none := by
  unfold Machine.carStopped
  split
  · rename_i due; exact h.tripEnded due.1 due.2
  · exact h

/-! ## The trip requests -/

theorem refuseTrip (h : s.RecordsAgree x) (on : s.configured c = true) (r : RefuseReason) :
    (refuseTrip c r s).1.RecordsAgree x :=
  (h.edit (f := fun q => { q with trip := { q.trip with verdict := .refused r } }) on (fun _ => rfl)
    fun _ => rfl).noticeCar c .refused

theorem computeTrip (h : s.RecordsAgree x) (on : s.configured c = true) (dir load : Byte) :
    (computeTrip c dir load s).RecordsAgree x :=
  h.edit (f := fun q => { q with trip := q.trip.withDemand (demandOf (s.car c).profile dir load) }) on
    (fun _ => rfl) fun _ => rfl

theorem admitEntry (h : s.RecordsAgree none) (role : s.role c = .recall ∨ s.role c = .service)
    (state : (s.trip c).state = .none) : (admitEntry c s).RecordsAgree none := by
  have live : (s.role c).live := by rcases role with e | e <;> rw [e] <;> decide
  have on := h.configured_of_role live.1
  have agrees := h.cars c on
  have awaits := h.awaits c (by simp) on
  have idle : ¬ (s.car c).trip.state.moving = true := by
    rw [show (s.car c).trip.state = .none from state]; decide
  have noDesel : (s.car c).pendDesel = false := Bool.eq_false_iff.2 fun some =>
    (awaits.pendDesel some).elim idle live.2.2
  have waiting : (s.updTrip c fun t =>
      { t with
        state := .waiting, purpose := some (purposeOf (s.role c)), stamp := some s.queue.nextStamp
        verdict := .none }).RecordsAgree none := by
    refine h.updCar on { agrees with
        mains := fun off => absurd ((h.generator live).symm.trans off) (by decide)
        waits := fun _ => role
        pendDesel := fun some => absurd (noDesel.symm.trans some) (by decide) }
      (fun _ => ⟨fun some => ?_, fun some => absurd (awaits.pendUnavail some) idle,
        fun some => absurd (noDesel.symm.trans some) (by decide)⟩) rfl ?_ fun _ => rfl
    · exact absurd (awaits.pendExcl some) (not_or.2 ⟨idle, fun lost => live.2.2 lost.1⟩)
    · rintro ⟨e, he, rfl⟩; exact h.listHeld e he
  unfold Machine.admitEntry
  extract_lets t u
  have queued : u.RecordsAgree none := by
    refine State.RecordsAgree.setEntries waiting fun d hd => ?_
    rcases List.mem_cons.1 ((insertBy_perm ..).mem_iff.1 hd) with same | hd
    · rw [same, State.updTrip_trip_same]
    · exact waiting.queue d hd
  exact queued.parts rfl rfl

theorem removed (h : s.RecordsAgree none) (waits : (s.trip c).state = .waiting) {f : Trip → Trip}
    (state : (f (s.trip c)).state = .none) :
    ((Machine.removeEntry c s).updTrip c f).RecordsAgree none := by
  have trip : (Machine.removeEntry c s).trip c = s.trip c := by rw [State.trip, removeEntry_car]; rfl
  refine (h.removeEntry c).endsTrip ?_ (not_mem_removeEntry s c) (by rw [trip]; exact waits)
    (by rw [trip]; exact state)
  exact (State.configured_of_store (removeEntry_only (.refl s) c).store c).trans
    (h.configured_of_trip (by rw [waits]; decide))

theorem withdrawTrip (h : s.RecordsAgree none) : (withdrawTrip c s).RecordsAgree none := by
  unfold Machine.withdrawTrip
  split
  · rename_i waits; exact h.removed waits rfl
  · exact h

theorem takeTrip (h : s.RecordsAgree none) (on : s.configured c = true) (dir load : Byte) :
    (takeTrip c dir load s).1.RecordsAgree none := by
  have computed := h.computeTrip on dir load
  have trip : ((Machine.computeTrip c dir load s).trip c).state = (s.trip c).state := by
    rw [Machine.computeTrip, State.updTrip_trip_same]; rfl
  have taken (role : s.role c = .recall ∨ s.role c = .service) :
      (match (s.trip c).state with
        | .starting | .running => Machine.refuseTrip c .busy s
        | .waiting => updateTrip c dir load s
        | .none => freshTrip c dir load s).1.RecordsAgree none := by
    split
    · exact h.refuseTrip on _
    · exact h.refuseTrip on _
    · rename_i state
      unfold updateTrip
      dsimp only
      split
      · refine (computed.removed (trip.trans state) rfl).refuseTrip ?_ _
        exact (State.configured_of_store (removeEntry_only (.refl _) c).store c).trans on
      · exact computed
    · rename_i state
      unfold freshTrip
      dsimp only
      split
      · exact computed.refuseTrip on _
      · refine computed.admitEntry ?_ (trip.trans state)
        rw [State.role, Machine.computeTrip, State.updTrip, State.updCar_car_same]; exact role
  unfold Machine.takeTrip
  split
  · exact h
  · exact h
  · exact h.refuseTrip on _
  · exact h.refuseTrip on _
  all_goals
    split
    · exact h.refuseTrip on _
    · rename_i role
      exact taken (by simpa [or_iff_not_and_not] using role)

theorem atSpeed (h : s.RecordsAgree none) : (atSpeed c s).RecordsAgree none := by
  unfold Machine.atSpeed
  split
  · rename_i due
    obtain ⟨role, state⟩ := due
    have on := h.configured_of_trip (c := c) (by rw [state]; decide)
    have agrees := h.cars c on
    have running : (s.updTrip c fun t => { t with state := .running }).RecordsAgree none := by
      refine h.updCar on { agrees with
          mains := fun off => absurd (state.symm.trans (agrees.mains off).2.1) (by decide)
          waits := fun waits => by cases waits
          pendDesel := fun some => ⟨(agrees.pendDesel some).1, fun waits => by cases waits⟩ }
        (fun _ => ⟨fun _ => .inl rfl, fun _ => rfl, fun _ => .inl rfl⟩) rfl ?_
        fun queued => absurd queued (h.not_queued (by rw [state]; decide))
      rintro ⟨e, he, rfl⟩; exact h.listHeld e he
    unfold endWindowOf
    split
    · exact running.parts rfl rfl
    · exact running
  · exact h

theorem startWindowExpires (h : s.RecordsAgree x)
    (held : ∀ d, s.gate.holder = .car d → s.configured d = true) :
    (startWindowExpires s).RecordsAgree x := by
  unfold Machine.startWindowExpires
  split
  · rename_i d holder
    have overdue := h.edit (f := fun r => { r with trip := { r.trip with startOverdue := true } })
      (held d holder) (fun _ => rfl) fun _ => rfl
    refine State.RecordsAgree.noticePanel ?_ .startOverdue
    exact overdue.parts rfl rfl
  · exact h

/-! ## A car's link -/

/-- A LOST car's link is lost again, or another's for the first time (R51, log 14). -/
theorem freezeCar (h : s.RecordsAgree none) (on : s.configured c = true)
    (running : s.plan.phase.generator = true) : (freezeCar c s).RecordsAgree none := by
  unfold Machine.freezeCar
  extract_lets t p u
  have dropped : t.RecordsAgree none := h.dropEntry c .link
  have on' : t.configured c = true := (dropEntry_configured c c .link s).trans on
  have left : u.RecordsAgree none := dropped.shorten List.filter_sublist
  have state : (u.trip c).state ≠ .waiting := dropEntry_state c .link s
  have running' : u.plan.phase.generator = true := by
    show t.plan.phase.generator = true
    rw [show t.plan = s.plan from dropEntry_plan c .link s]; exact running
  have agrees := left.cars c on'
  have awaits := left.awaits c (by simp) on'
  refine State.RecordsAgree.noticePanel ?_ .carLost
  split
  · exact left
  · rename_i role
    have role : (u.car c).role ≠ .lost := role
    obtain ⟨preLoss, slot, timer, desel⟩ := agrees.of_role role
    obtain ⟨free, absent⟩ := agrees.running running'
    refine left.updCar on' ?_ (fun _ => ?_) ?_ ?_ fun queued => absurd queued (left.not_queued state)
    · rw [running']
      refine .of_lost rfl ?_ agrees.linkTimer (slot.trans (by simp)) (fun some => by simpa using timer some)
        state fun some => by simpa using (desel some).1
      simp [Role.mayReturn, free, absent, role]
    · rw [running']
      exact ⟨fun _ => .inr ⟨rfl, rfl⟩, awaits.pendUnavail, fun _ => .inr rfl⟩
    · cases same : (u.car c).role <;> simp_all [CarRecord.inService]
    · rintro ⟨e, he, same⟩
      exact absurd same (not_listed_filter c _ e he)

theorem carLinkUp (h : s.RecordsAgree none) (on : s.configured c = true) :
    (carLinkUp c s).RecordsAgree none := by
  have agrees := h.cars c on
  have heard : CarRecord.Agrees s.plan.phase.generator
      { s.car c with link := .up, linkTimer := s.startTimer (tLink s.store.active) } :=
    { agrees with linkTimer := ⟨fun _ => rfl, fun _ => rfl⟩ }
  unfold Machine.carLinkUp
  refine h.updCar on ?_ (fun _ => ?_) ?_ ?_ ?_
  all_goals dsimp only
  · split
    · rename_i freed
      rw [freed.2] at heard ⊢
      exact heard.freed
    · exact heard
  · have awaits := h.awaits c (by simp) on
    split
    · rename_i freed
      rw [freed.2] at agrees awaits
      obtain ⟨excl, unavail, desel⟩ := agrees.none_pending awaits
      exact .of_none excl unavail desel
    · obtain ⟨excl, unavail, desel⟩ := awaits
      exact ⟨excl, unavail, desel⟩
  · split
    · rename_i freed
      have lost : (s.car c).role = .lost := freed.1
      have away := (agrees.mains freed.2).2.2.2
      rw [away]; rfl
    · rfl
  · rintro ⟨e, he, rfl⟩
    obtain ⟨held, sound⟩ := h.listHeld e he
    rw [if_neg fun freed => absurd (held.symm.trans freed.1) (by decide)]
    exact ⟨held, sound⟩
  · intro queued
    have waits := h.queue c queued
    split
    · exact waits
    · exact waits

/-- A car's link times out (R50 to R52). -/
theorem loseCarLink (h : s.RecordsAgree none) (up : (s.car c).link = .up) :
    (loseCarLink c s).RecordsAgree none := by
  have on : s.configured c = true := by
    cases e : s.configured c
    · rw [(h.absent c e).1] at up; cases up
    · rfl
  have agrees := h.cars c on
  obtain ⟨excl, unavail, desel⟩ := h.awaits c (by simp) on
  have silent : (s.updCar c fun r => { r with link := .lost, linkTimer := none }).RecordsAgree none := by
    refine h.updCar on { agrees with linkTimer := ⟨fun k => (by cases k), fun k => (by cases k)⟩ }
      (fun _ => ⟨excl, unavail, desel⟩) rfl ?_ (h.queue c)
    rintro ⟨e, he, rfl⟩; exact h.listHeld e he
  unfold Machine.loseCarLink
  dsimp only
  split
  · rename_i running
    exact silent.freezeCar on running
  · exact silent

end State.RecordsAgree

end Sys2Proof.Machine
end

section
/-!
PROOFS. The records invariant over inclusion, release, recall supervision and SELECT (R58 to R60, R109, R113, R114).
-/

namespace Sys2Proof.Machine.State.RecordsAgree

variable {s t : State} {x : Option CarIx} {c : CarIx}

/-! ## Inclusion and release -/

theorem excludeCar (h : s.RecordsAgree none) (on : s.configured c = true) :
    (excludeCar c s).RecordsAgree none := by
  unfold Machine.excludeCar
  split
  · have excluded : (s.updCar c fun r => { r with included := false }).RecordsAgree none :=
      h.edit on (fun _ => rfl) fun _ => rfl
    exact (excluded.noticeCar c .excluded).applyExclusion (.inl rfl)
  · exact h

theorem admitCar (h : s.RecordsAgree none) (on : s.configured c = true) :
    (admitCar c s).RecordsAgree none := by
  have agrees := h.cars c on
  obtain ⟨-, unavail, desel⟩ := h.awaits c (by simp) on
  have included : (s.updCar c fun r =>
      { r with included := true, recallFailed := false, pendExcl := false }).RecordsAgree none := by
    refine h.updCar on { agrees with } (fun _ => ⟨fun some => (by cases some), unavail, desel⟩) rfl ?_
      (h.queue c)
    rintro ⟨e, he, rfl⟩; exact ⟨(h.listHeld e he).1, rfl⟩
  unfold Machine.admitCar
  dsimp only
  split
  · rename_i due; exact included.readmit due.1
  · split
    · rename_i due
      exact included.handBack due.1 (h.not_listed (.inr due.2))
    · exact included

theorem takeInclude (h : s.RecordsAgree none) (ix code : Byte) :
    (takeInclude ix code s).1.RecordsAgree none := by
  unfold Machine.takeInclude
  split
  · exact h
  · split
    · exact h
    · rename_i on
      split
      · exact h.excludeCar (by simpa using on)
      · exact h.admitCar (by simpa using on)

theorem takeRelease (h : s.RecordsAgree none) (ix : Byte) : (takeRelease ix s).1.RecordsAgree none := by
  unfold Machine.takeRelease
  split
  · exact h
  · rename_i d _
    split
    · exact h
    · rename_i may
      obtain ⟨on, lost⟩ : s.configured d = true ∧ s.role d = .lost := by simpa using may
      split
      · rename_i running; exact h.endFrozen lost running rfl
      · rename_i off
        have off : s.plan.phase.generator = false := by simpa using off
        have agrees := h.cars d on
        have awaits := h.awaits d (by simp) on
        rw [off] at agrees awaits
        obtain ⟨excl, unavail, desel⟩ := agrees.none_pending awaits
        show (s.updCar d fun r => { r with role := .free, preLoss := none }).RecordsAgree none
        refine h.updCar on (by rw [off]; exact agrees.freed) (fun _ => .of_none excl unavail desel) ?_ ?_
          (h.queue d)
        · rw [(agrees.mains rfl).2.2.2]; rfl
        · rintro ⟨e, he, rfl⟩
          exact absurd (lost.symm.trans (h.listHeld e he).1) (by decide)

/-! ## Recall supervision and the other timers -/

theorem configured_of_inRecall (h : s.RecordsAgree x) (counts : s.inRecall c = true) :
    s.configured c = true := by
  refine h.configured_of_role fun absent => ?_
  rcases (CarRecord.inRecall_iff _).1 counts with e | ⟨e, -⟩
  all_goals exact absurd (absent.symm.trans e) (by decide)

/-- A car's recall supervision expires (R109). -/
theorem recallExpires (h : s.RecordsAgree none) (counts : s.inRecall c = true) :
    (recallExpires c s).RecordsAgree none := by
  have on := h.configured_of_inRecall counts
  have agrees := h.cars c on
  have stopped : (s.updCar c fun r => { r with recallTimer := none }).RecordsAgree none := by
    obtain ⟨excl, unavail, desel⟩ := h.awaits c (by simp) on
    refine h.updCar on { agrees with recallTimer := fun some => by cases some }
      (fun _ => ⟨excl, unavail, desel⟩) rfl ?_ (h.queue c)
    rintro ⟨e, he, rfl⟩; exact h.listHeld e he
  unfold Machine.recallExpires
  generalize told : (s.updCar c fun r => { r with recallTimer := none }).noticePanel .recallFailed = t
  have ht : t.RecordsAgree none := told ▸ stopped.noticePanel .recallFailed
  have own : t.car c = { s.car c with recallTimer := none } := by
    rw [← told, State.noticePanel_car, State.updCar_car_same]
  have on : t.configured c = true := by rw [← told]; exact on
  have agrees := ht.cars c on
  have awaits := ht.awaits c (by simp) on
  have counts : (t.car c).inRecall = true := by rw [own]; exact counts
  dsimp only
  split
  · exact ht.edit on (fun _ => rfl) fun _ => rfl
  · rename_i still
    split
    · rename_i lost
      have state := (agrees.of_preLoss lost).2.2.2
      have back : (t.car c).preLoss = some .recall := by
        rcases (CarRecord.inRecall_iff _).1 counts with e | e
        · exact absurd (lost.symm.trans e) (by decide)
        · exact e.2
      have running : t.plan.phase.generator = true := Bool.not_eq_false _ ▸ fun off =>
        absurd (counts.symm.trans (agrees.mains off).2.2.1) (by decide)
      have noDesel : (t.car c).pendDesel = false := Bool.eq_false_iff.2 fun some => by
        have serves := (agrees.of_preLoss lost).2.2.1 some
        rw [back] at serves; cases serves
      have role : (t.car c).role = .lost := lost
      refine ht.leave on (ht.not_queued state) ?_ (fun _ => ?_) ?_
      · rw [running]
        exact .of_lost lost rfl agrees.linkTimer ⟨fun k => (by cases k), fun k => (by cases k)⟩
          (fun k => by cases k) state fun some => absurd (noDesel.symm.trans some) (by decide)
      · obtain ⟨excl, unavail, desel⟩ := awaits
        exact ⟨excl, unavail, desel⟩
      · simp [CarRecord.inService, role]
    · rename_i role
      have recalled : t.role c = .recall := by
        rcases (CarRecord.inRecall_iff _).1 counts with e | e
        · exact e
        · exact absurd e.1 role
      have live : (t.role c).live := by rw [recalled]; decide
      have dropped := ht.dropEntry c .role
      have on' := (dropEntry_configured c c .role t).trans on
      have role' : (Machine.dropEntry c .role t).role c = .recall := (dropEntry_role ..).trans recalled
      have live' : ((Machine.dropEntry c .role t).role c).live := by rw [role']; decide
      have noDesel : ((Machine.dropEntry c .role t).car c).pendDesel = false :=
        Bool.eq_false_iff.2 fun some =>
          absurd (role'.symm.trans (((dropped.cars c on').of_role live'.2.2).2.2.2 some).1) (by decide)
      exact dropped.leaveAside on' (dropped.generator live') (dropEntry_state c .role t) rfl
        (dropped.preLoss_none live'.2.2) ⟨rfl, rfl⟩ rfl noDesel fun other =>
        (dropped.awaits c other on').moved live'.2.2 rfl rfl rfl noDesel

theorem shedExpires (h : s.RecordsAgree x) : (shedExpires c s).RecordsAgree x := by
  unfold Machine.shedExpires
  refine State.RecordsAgree.noticePanel ?_ .shedOverdue
  exact h.parts rfl rfl

theorem forceClearance (h : s.RecordsAgree x) (phase : s.plan.phase = .returning) :
    (forceClearance s).RecordsAgree x := by
  have cleared : State.RecordsAgree x { s with
      plan := { s.plan with clearance := .clear, returnTimer := none } } := by
    refine h.retime rfl rfl rfl rfl rfl rfl rfl ?_
    exact ⟨fun _ => phase, fun some => (by cases some), h.timed.settleTimer, h.timed.recallDone,
      h.timed.service⟩
  exact (cleared.noticeSupply .clear).noticePanel .returnForced

theorem endPanelHold (h : s.RecordsAgree x) : (endPanelHold s).RecordsAgree x := by
  unfold Machine.endPanelHold
  dsimp only
  split <;> exact h.parts rfl rfl

theorem takeClaim (h : s.RecordsAgree x) (u : Byte) : (takeClaim u s).1.RecordsAgree x := by
  unfold Machine.takeClaim
  split
  · exact h
  · exact h
  · exact h
  all_goals
    split
    · exact h
    · split
      · exact h
      · split
        · exact h
        · exact h.parts rfl rfl

theorem releaseClaim (h : s.RecordsAgree x) : (releaseClaim s).1.RecordsAgree x := by
  unfold Machine.releaseClaim
  split
  · exact h.endPanelHold
  · split
    · exact h.parts rfl rfl
    · exact h

theorem takeReserve (h : s.RecordsAgree x) (entry : Byte) (amount : Nat) :
    (takeReserve entry amount s).1.RecordsAgree x := by
  unfold Machine.takeReserve
  split
  · exact h
  · dsimp only
    split <;> exact h.parts rfl rfl

theorem takeRecovered (h : s.RecordsAgree x) : (takeRecovered s).RecordsAgree x := by
  unfold Machine.takeRecovered
  split
  · exact h.parts rfl rfl
  · exact h

theorem offerStep (h : s.RecordsAgree x) (args : List Byte) : (offerStep args s).RecordsAgree x :=
  have latched : State.RecordsAgree x { s with account := latchOffer args s.account } := h.parts rfl rfl
  latched.closeEvent {} s

/-! ## SELECT -/

/-- Every record changes, and the list, the order, the queue and the phase's timers with them. -/
theorem all (h : s.RecordsAgree none) {f : CarIx → CarRecord → CarRecord}
    (cars : ∀ c, t.car c = f c (s.car c)) (store : t.store = s.store)
    (notices : ∀ c, s.configured c = false → (t.port (.car c)).notices = 0)
    (absent : ∀ c, s.configured c = false → f c (.atReset .absent) = .atReset .absent)
    (agrees : ∀ c, s.configured c = true → (f c (s.car c)).Agrees t.plan.phase.generator)
    (awaits : ∀ c, s.configured c = true → (f c (s.car c)).Awaits t.plan.phase.generator)
    (orderOnce : t.plan.serviceOrder.Nodup)
    (order : ∀ c, c ∈ t.plan.serviceOrder ↔ (f c (s.car c)).inService = true)
    (listOnce : (t.plan.recallList.map fun e => e.car).Nodup)
    (listHeld : ∀ e ∈ t.plan.recallList, (f e.car (s.car e.car)).role = .held ∧
      (f e.car (s.car e.car)).recallFailed = false)
    (queue : ∀ c ∈ t.queue.entries, (f c (s.car c)).trip.state = .waiting) (timed : t.PhaseTimed) :
    t.RecordsAgree none where
  absent c off := by
    rw [State.configured_of_store store] at off
    rw [cars, (h.absent c off).1]
    exact ⟨absent c off, notices c off⟩
  cars c on := by
    rw [cars]; exact agrees c ((State.configured_of_store store c).symm.trans on)
  awaits c _ on := by
    rw [cars]; exact awaits c ((State.configured_of_store store c).symm.trans on)
  orderOnce := orderOnce
  order c := by rw [cars]; exact order c
  listOnce := listOnce
  listHeld e he := by rw [State.role, cars]; exact listHeld e he
  queue c hc := by rw [State.trip, cars]; exact queue c hc
  timed := timed

/-- The pending deselections of some cars are cleared (R114). -/
theorem clearDeselections (h : s.RecordsAgree none) (p : CarIx → Bool) :
    (s.updAllCars fun c r => if p c then { r with pendDesel := false } else r).RecordsAgree none := by
  have agrees (c : CarIx) {r : CarRecord} {g : Bool} (k : r.Agrees g) :
      (if p c then { r with pendDesel := false } else r).Agrees g := by
    split
    · exact { k with pendDesel := fun some => by cases some }
    · exact k
  have awaits (c : CarIx) {r : CarRecord} {g : Bool} (k : r.Awaits g) :
      (if p c then { r with pendDesel := false } else r).Awaits g := by
    split
    · exact { k with pendDesel := fun some => by cases some }
    · exact k
  refine h.all (f := fun c r => if p c then { r with pendDesel := false } else r)
    (fun c => State.updAllCars_car ..) rfl (fun c off => (h.absent c off).2) (fun c _ => ?_)
    (fun c on => agrees c (h.cars c on)) (fun c on => awaits c (h.awaits c (by simp) on)) h.orderOnce
    (fun c => ?_) h.listOnce (fun e he => ?_) (fun c hc => ?_) (h.timed.of_timing rfl)
  · split <;> rfl
  · refine (h.order c).trans (Eq.to_iff ?_)
    split <;> rfl
  · have held := h.listHeld e he
    split <;> exact held
  · have waits := h.queue c hc
    split <;> exact waits

theorem leaveOut (h : s.RecordsAgree none) : (leaveOut s c).RecordsAgree none := by
  have marked (on : s.configured c = true) (serves : (s.car c).inService = true)
      (state : (s.trip c).state ≠ .waiting)
      (waits : (s.car c).trip.state.moving = true ∨ (s.car c).role = .lost) :
      (s.updCar c fun r => { r with pendDesel := true }).RecordsAgree none := by
    have agrees := h.cars c on
    obtain ⟨excl, unavail, -⟩ := h.awaits c (by simp) on
    refine h.updCar on { agrees with pendDesel := fun _ => ⟨serves, state⟩ }
      (fun _ => ⟨excl, unavail, fun _ => waits⟩) rfl ?_ (h.queue c)
    rintro ⟨e, he, rfl⟩; exact h.listHeld e he
  unfold Machine.leaveOut
  split
  · exact h
  · split
    · rename_i serves
      split
      · exact h.deselect serves
      · rename_i busy
        have moves : (s.trip c).state.moving = true := by simpa [TripState.still_eq] using busy
        refine marked (h.configured_of_role (by rw [serves]; decide))
          ((CarRecord.inService_iff _).2 (.inl serves)) (fun waits => ?_) (.inl moves)
        rw [waits] at moves; cases moves
    · split
      · rename_i lost
        have on := h.configured_of_role (c := c) (by rw [lost.1]; decide)
        exact marked on ((CarRecord.inService_iff _).2 (.inr lost)) ((h.cars c on).of_preLoss lost.1).2.2.2
          (.inr lost.1)
      · exact h

theorem takeSelect (h : s.RecordsAgree none) (args : List Byte) :
    (takeSelect args s).RecordsAgree none := by
  unfold Machine.takeSelect
  dsimp only
  split
  · have cleared := h.clearDeselections fun _ => true
    exact State.RecordsAgree.retime cleared rfl rfl rfl rfl rfl rfl rfl (h.timed.of_timing rfl)
  · have cleared := h.clearDeselections fun c => (manualListOf s (args.drop 1)).contains c
    have listed := State.RecordsAgree.retime (t := { (s.updAllCars fun c r =>
        if (manualListOf s (args.drop 1)).contains c then { r with pendDesel := false } else r) with
          plan := { s.plan with mode := .manual, manualList := manualListOf s (args.drop 1) } })
      cleared rfl rfl rfl rfl rfl rfl rfl (h.timed.of_timing rfl)
    split
    · exact List.foldlRecOn allCars _ listed fun _ ht d _ => ht.leaveOut
    · exact listed

end Sys2Proof.Machine.State.RecordsAgree
end

section
/-!
PROOFS. The records invariant over the phases (R98 to R105, R115 to R117): each entry to a phase announces it, empties
the queue where it must, and gives every record what its new phase asks of it.
-/

namespace Sys2Proof.Machine

/-! ## The announcements do not read the plan -/

def State.withPlan (s : State) (p : Plan) : State := { s with plan := p }

theorem State.withPlan_noticeCar (s : State) (p : Plan) (c : CarIx) (k : CarNotice) :
    (s.noticeCar c k).withPlan p = (s.withPlan p).noticeCar c k := by
  unfold State.noticeCar
  rw [show (s.withPlan p).configured c = s.configured c from rfl]
  split <;> rfl

theorem setEntries_withPlan (l : List CarIx) (s : State) (p : Plan) :
    (setEntries l s).withPlan p = setEntries l (s.withPlan p) := by
  simp only [setEntries, apply_ite (fun t : State => t.withPlan p)]
  rfl

theorem dropEntry_withPlan (c : CarIx) (r : DropReason) (s : State) (p : Plan) :
    (dropEntry c r s).withPlan p = dropEntry c r (s.withPlan p) := by
  unfold dropEntry
  rw [show (s.withPlan p).trip c = s.trip c from rfl]
  split
  · rw [State.withPlan_noticeCar]
    have removed : (removeEntry c s).withPlan p = removeEntry c (s.withPlan p) := setEntries_withPlan _ s p
    rw [← removed]; rfl
  · rfl

theorem enterPhase_car (p : Phase) (s : State) (c : CarIx) : (enterPhase p s).car c = s.car c := by
  unfold enterPhase
  rw [State.noticeCars_car]; rfl

theorem enterPhase_entries (p : Phase) (s : State) :
    (enterPhase p s).queue.entries = s.queue.entries := by
  unfold enterPhase
  rw [State.noticeCars_queue]; rfl

/-! ## Each record over a phase change -/

theorem Role.live.cases {r : Role} (h : r.live) :
    r = .recall ∨ r = .service ∨ r = .held ∨ r = .parked ∨ r = .unavailable := by
  cases r <;> simp_all [Role.live]

namespace CarRecord

variable {r : CarRecord}

theorem generatorRole_cases (r : CarRecord) :
    r.generatorRole = .held ∨ r.generatorRole = .unavailable := by
  unfold generatorRole
  split
  · exact .inl rfl
  · exact .inr rfl

/-- In START and MAINS no slot is held and no supervision runs. -/
theorem Agrees.no_slot (h : r.Agrees false) : r.slotStart = none ∧ r.recallTimer = none := by
  have away := (h.mains rfl).2.2.1
  exact ⟨Option.not_isSome_iff_eq_none.1 fun some =>
      absurd (away.symm.trans (h.recallSlot.1 some)) (by decide),
    Option.not_isSome_iff_eq_none.1 fun some =>
      absurd (away.symm.trans (h.recallTimer some)) (by decide)⟩

theorem giveRole_agrees (h : r.Agrees false) (awaits : r.Awaits false) :
    (giveRole r).Agrees true ∧ (giveRole r).Awaits true ∧ (giveRole r).inService = false := by
  obtain ⟨-, state, -⟩ := h.mains rfl
  obtain ⟨slot, timer⟩ := h.no_slot
  obtain ⟨excl, unavail, desel⟩ := h.none_pending awaits
  have idle : r.trip.state ≠ .waiting := by rw [state]; decide
  unfold giveRole
  split
  · have aside : r.generatorRole.aside = true := by
      rcases generatorRole_cases r with e | e <;> rw [e] <;> rfl
    exact ⟨.of_aside aside rfl h.linkTimer ⟨slot, timer⟩ idle desel, .of_none excl unavail desel,
      inService_aside aside⟩
  · have role := generatorRole_cases r
    refine ⟨.of_lost rfl ?_ h.linkTimer ?_ (fun some => ?_) idle (fun some => ?_),
      .of_none excl unavail desel, ?_⟩
    · rcases role with e | e <;> simp only [e] <;> rfl
    · rcases role with e | e <;> simp [slot, e]
    · rw [timer] at some; cases some
    · rw [desel] at some; cases some
    · rcases role with e | e <;> simp [inService, e]

theorem returnToMains_agrees (h : r.Agrees true) : (returnToMains r).Agrees false ∧
    (returnToMains r).Awaits false ∧ (returnToMains r).inService = false := by
  obtain ⟨free, absent⟩ := h.running rfl
  have role : (returnToMains r).role = if r.role = .lost then .lost else .free := by
    show (if r.role = .lost ∨ r.role = .absent then r.role else .free) = _
    by_cases lost : r.role = .lost
    · rw [if_pos (.inl lost), if_pos lost, lost]
    · rw [if_neg (not_or.2 ⟨lost, absent⟩), if_neg lost]
  have cases : (returnToMains r).role = .free ∨ (returnToMains r).role = .lost := by
    rw [role]
    split
    · exact .inr rfl
    · exact .inl rfl
  have preLoss : (returnToMains r).preLoss = none := rfl
  refine ⟨.of_mains (cases.imp_left fun e => ⟨e, rfl⟩) (by simp [preLoss]) h.linkTimer ⟨rfl, rfl⟩ rfl
    rfl, .of_none rfl rfl rfl, ?_⟩
  rcases cases with e | e <;> simp only [inService, e, preLoss] <;> rfl

/-- What R103 gives the record of a car that was not LOST (logs 15, 33). -/
theorem loseGenerator_live (role : r.role.live) : ∃ after : Role, after.aside = true ∧
    loseGenerator r = { r with
      trip := { r.trip with state := .none }, powered := false, recallTimer := none
      slotStart := none, recallFailed := false, pendUnavail := false, pendDesel := false, pendExcl := false
      role := if r.link = .up then after else .lost
      preLoss := if r.link = .up then r.preLoss else some after } := by
  have made (after : Role) : (if r.link = .up then ({ r with
        trip := { r.trip with state := .none }, powered := false, recallTimer := none
        slotStart := none, recallFailed := false, pendUnavail := false, pendDesel := false
        role := after, pendExcl := false } : CarRecord)
      else { r with
        trip := { r.trip with state := .none }, powered := false, recallTimer := none
        slotStart := none, recallFailed := false, pendUnavail := false, pendDesel := false
        role := .lost, pendExcl := false, preLoss := some after }) = { r with
      trip := { r.trip with state := .none }, powered := false, recallTimer := none
      slotStart := none, recallFailed := false, pendUnavail := false, pendDesel := false, pendExcl := false
      role := if r.link = .up then after else .lost
      preLoss := if r.link = .up then r.preLoss else some after } := by
    split <;> rfl
  have idle : (if (r.pendExcl || r.pendUnavail) = true then Role.unavailable else .held).aside = true := by
    split <;> rfl
  rcases role.cases with e | e | e | e | e
  · exact ⟨_, idle, by rw [← made, loseGenerator, e]⟩
  · exact ⟨_, idle, by rw [← made, loseGenerator, e]⟩
  · exact ⟨.held, rfl, by rw [← made, loseGenerator, e]⟩
  · exact ⟨.parked, rfl, by rw [← made, loseGenerator, e]⟩
  · exact ⟨.unavailable, rfl, by rw [← made, loseGenerator, e]⟩

theorem loseGenerator_agrees (h : r.Agrees true) : (loseGenerator r).Agrees true ∧
    (loseGenerator r).Awaits true ∧ (loseGenerator r).inService = false := by
  obtain ⟨free, absent⟩ := h.running rfl
  by_cases lost : r.role = .lost
  · obtain ⟨back, preLoss, mayReturn⟩ := h.preLoss_some rfl lost
    obtain ⟨after, made, may, aside⟩ : ∃ after : Role, loseGenerator r = { r with
        trip := { r.trip with state := .none }, powered := false, recallTimer := none
        slotStart := none, recallFailed := false, pendUnavail := false, pendDesel := false
        preLoss := some after } ∧ after.mayReturn = true ∧ after.aside = true := by
      rcases Role.mayReturn_cases mayReturn with e | e | e
      · exact ⟨.held, by simp only [loseGenerator, lost, preLoss, e], rfl, rfl⟩
      · exact ⟨.held, by simp only [loseGenerator, lost, preLoss, e], rfl, rfl⟩
      · refine ⟨back, ?_, mayReturn, e⟩
        rcases (Role.aside_iff _).1 e with e | e | e <;> simp only [loseGenerator, lost, preLoss, e]
    have away : after ≠ .recall ∧ after ≠ .service := by
      rcases (Role.aside_iff _).1 aside with e | e | e <;> rw [e] <;> decide
    rw [made]
    refine ⟨.of_lost lost may h.linkTimer (by simp [away.1]) (fun some => by cases some)
      (fun waits => by cases waits) fun some => (by cases some), ⟨fun _ => .inr ⟨lost, rfl⟩,
      fun some => (by cases some), fun some => (by cases some)⟩, ?_⟩
    simp [inService, lost, away.2]
  · obtain ⟨after, aside, made⟩ := loseGenerator_live (r := r) ⟨absent, free, lost⟩
    have away : after ≠ .recall ∧ after ≠ .service ∧ after.mayReturn = true := by
      rcases (Role.aside_iff _).1 aside with e | e | e <;> rw [e] <;> decide
    rw [made]
    by_cases up : r.link = .up
    · simp only [if_pos up]
      exact ⟨.of_aside aside (h.preLoss_none lost) h.linkTimer ⟨rfl, rfl⟩ (fun waits => by cases waits) rfl,
        .of_none rfl rfl rfl, inService_aside aside⟩
    · simp only [if_neg up]
      refine ⟨.of_lost rfl away.2.2 h.linkTimer (by simp [away.1]) (fun some => by cases some)
        (fun waits => by cases waits) fun some => (by cases some), .of_none rfl rfl rfl, ?_⟩
      simp [inService, away.2.1]

theorem settleForReturn_agrees (h : r.Agrees true) (awaits : r.Awaits true) :
    (settleForReturn r).Agrees true ∧ (settleForReturn r).Awaits true ∧
    (settleForReturn r).inService = r.inService ∧
    (r.role = .held → settleForReturn r = r) := by
  have kept : r.Agrees true ∧ r.Awaits true ∧ r.inService = r.inService ∧ (r.role = .held → r = r) :=
    ⟨h, awaits, rfl, fun _ => rfl⟩
  unfold settleForReturn
  split
  · rename_i state
    have idle : r.trip.state ≠ .waiting := by rw [state]; decide
    have still : ¬ r.trip.state.moving = true := by rw [state]; decide
    split
    · rename_i role
      have live : r.role ≠ .lost := by rw [role]; decide
      have noDesel : r.pendDesel = false := Bool.eq_false_iff.2 fun some =>
        absurd (role.symm.trans ((h.of_role live).2.2.2 some).1) (by decide)
      refine ⟨.of_aside rfl (h.preLoss_none live) h.linkTimer ⟨rfl, rfl⟩ idle noDesel,
        awaits.moved live rfl rfl rfl noDesel, ?_, fun held => absurd (role.symm.trans held) (by decide)⟩
      simp only [inService, role]
      rfl
    · split
      · rename_i lost
        obtain ⟨lost, back⟩ := lost
        have noDesel : r.pendDesel = false := Bool.eq_false_iff.2 fun some =>
          absurd (back.symm.trans ((h.of_preLoss lost).2.2.1 some)) (by decide)
        refine ⟨.of_lost lost rfl h.linkTimer (by simp) (fun some => by cases some) idle
          (fun some => absurd (noDesel.symm.trans some) (by decide)), ⟨fun _ => .inr ⟨lost, rfl⟩,
          awaits.pendUnavail, fun some => absurd (noDesel.symm.trans some) (by decide)⟩, ?_,
          fun held => absurd (lost.symm.trans held) (by decide)⟩
        simp only [inService, lost, back]
        rfl
      · exact kept
  · exact kept

end CarRecord

end Sys2Proof.Machine
end

section
/-!
PROOFS. The records invariant over a supply report (R98 to R105, R115 to R117).
-/

namespace Sys2Proof.Machine

variable {s t : State} {x : Option CarIx} {c : CarIx}

theorem State.withPlan_configured (s : State) (p : Plan) (c : CarIx) :
    (s.withPlan p).configured c = s.configured c := rfl

theorem giveRoles_car (s : State) (c : CarIx) : (giveRoles s).car c =
    if s.configured c then giveRole (s.car c) else s.car c := State.updAllCars_car ..

theorem clearRecallFailed_car (s : State) (c : CarIx) : (clearRecallFailed s).car c =
    { s.car c with recallFailed := false } := State.updAllCars_car ..

/-- What of a state the entry to OUTAGE leaves as the announcement left it. -/
theorem closed_rest (s : State) : (clearRecallFailed (giveRoles (closeGate s))).store = s.store ∧
    (clearRecallFailed (giveRoles (closeGate s))).ports = s.ports ∧
    (clearRecallFailed (giveRoles (closeGate s))).queue = s.queue ∧
    (clearRecallFailed (giveRoles (closeGate s))).plan = s.plan := ⟨rfl, rfl, rfl, rfl⟩

/-- What of a state the entry to RETURN from START leaves as the announcement left it. -/
theorem opened_rest (s : State) : (openGate (giveRoles s)).store = s.store ∧
    (openGate (giveRoles s)).ports = s.ports ∧ (openGate (giveRoles s)).queue = s.queue ∧
    (openGate (giveRoles s)).plan = s.plan := ⟨rfl, rfl, rfl, rfl⟩

/-- A state in which phase `p` has just been announced: beside the phase and notices it is as before (R97). -/
structure State.Announces (s : State) (p : Phase) (v : State) : Prop where
  store : v.store = s.store
  plan : v.plan = { s.plan with phase := p }
  car : ∀ c, v.car c = s.car c
  entries : v.queue.entries = s.queue.entries

theorem enterPhase_announces (s : State) (p : Phase) : s.Announces p (enterPhase p s) where
  store := (enterPhase_only (.refl s) p).store
  plan := enterPhase_plan p s
  car := enterPhase_car p s
  entries := enterPhase_entries p s

/-- Every entry dropped, after the phase is announced (R94, R97). -/
def emptied (p : Phase) (s : State) : State := dropAllEntries (enterPhase p s)

theorem Phase.quiet_of_generator {p : Phase} (h : p.generator = false) : p.quiet = true := by
  cases p <;> simp_all [Phase.generator, Phase.quiet]

theorem emptied_plan (p : Phase) (s : State) : (emptied p s).plan = { s.plan with phase := p } := by
  rw [emptied, dropAllEntries_plan, enterPhase_plan]

theorem emptied_entries (p : Phase) (s : State) : (emptied p s).queue.entries = [] := by
  rw [emptied, dropAllEntries, setEntries_entries]

/-- The generator is left for OUTAGE or MAINS: every record changes, the gate closes and the plan is emptied
(R103, R104). -/
def generatorLeft (f : CarRecord → CarRecord) (v : State) : State :=
  let u := (closeGate v).updAllCars fun _ r => f r
  { u with
    plan := { u.plan with
      settleTimer := none, recallDone := false, returnTimer := none, clearance := .notClear
      recallList := [], serviceOrder := [] }
    shed := .atReset }

theorem generatorLeft_car (f : CarRecord → CarRecord) (v : State) (c : CarIx) :
    (generatorLeft f v).car c = f (v.car c) := State.updAllCars_car (closeGate v) (fun _ r => f r) c

theorem enterMains_eq (s : State) : enterMains s = generatorLeft returnToMains
    (emptied .mains (if uncleared s then s.noticePanel .unclearedTransfer else s)) := rfl

theorem generatorLoss_eq (s : State) :
    generatorLoss s = generatorLeft loseGenerator (emptied .outage s) := rfl

/-- RETURN begins: the cars in recall that are idle become HELD, and the return timer starts (R115, R116). -/
def returnBegun (v : State) : State :=
  let t := v.updAllCars fun _ r => settleForReturn r
  { t with plan := { t.plan with returnTimer := t.startTimer (tRet t.store.active) } }

theorem returnBegun_car (v : State) (c : CarIx) : (returnBegun v).car c = settleForReturn (v.car c) :=
  State.updAllCars_car v (fun _ r => settleForReturn r) c

theorem enterReturn_eq (s : State) :
    enterReturn s = clearanceCheck (returnBegun (emptied .returning s)) := rfl

namespace State.RecordsAgree

/-- A phase is announced; with the plan as it was the records agree as before. -/
theorem announced (h : s.RecordsAgree x) (p : Phase) :
    ((Machine.enterPhase p s).withPlan s.plan).RecordsAgree x := by
  have told : ((s.noticeSupply .phase).noticePanel .phase).RecordsAgree x :=
    (h.noticeSupply .phase).noticePanel .phase
  have cars (l : List CarIx) (v : State) (hv : (v.withPlan s.plan).RecordsAgree x) :
      ((l.foldl (fun u c => u.noticeCar c .phase) v).withPlan s.plan).RecordsAgree x :=
    List.foldlRecOn (motive := fun u : State => (u.withPlan s.plan).RecordsAgree x) l
      (fun u c => u.noticeCar c .phase) hv fun u hu c _ => by
        rw [State.withPlan_noticeCar]; exact hu.noticeCar c .phase
  unfold Machine.enterPhase State.noticeCars
  exact cars _ _ (told.parts rfl rfl)

theorem emptied (h : s.RecordsAgree x) (p : Phase) :
    ((emptied p s).withPlan s.plan).RecordsAgree x := by
  have dropped (l : List CarIx) : ((l.foldl (fun t c => Machine.dropEntry c .phase t)
      (Machine.enterPhase p s)).withPlan s.plan).RecordsAgree x :=
    List.foldlRecOn (motive := fun u : State => (u.withPlan s.plan).RecordsAgree x) l
      (fun u c => Machine.dropEntry c .phase u) (h.announced p) fun u hu c _ => by
        rw [dropEntry_withPlan]; exact hu.dropEntry c .phase
  unfold Machine.emptied dropAllEntries
  rw [setEntries_withPlan]
  exact (dropped _).setEntries fun c hc => by cases hc

theorem no_order (h : s.RecordsAgree x) (none : ∀ c, (s.car c).inService = false) :
    s.plan.serviceOrder = [] :=
  List.eq_nil_iff_forall_not_mem.2 fun c mem =>
    absurd ((none c).symm.trans ((h.order c).1 mem)) (by decide)

/-- In START and MAINS no car waits, none is listed and none is in the service order. -/
theorem mains_empty (h : s.RecordsAgree none) (off : s.plan.phase.generator = false) :
    s.queue.entries = [] ∧ s.plan.recallList = [] ∧ s.plan.serviceOrder = [] := by
  have record (c : CarIx) : (s.role c = .free ∨ s.role c = .lost ∨ s.role c = .absent) ∧
      (s.trip c).state = .none ∧ (s.car c).inService = false := by
    cases on : s.configured c
    · rw [State.role, State.trip, (h.absent c on).1]; exact ⟨.inr (.inr rfl), rfl, rfl⟩
    · obtain ⟨role, state, -, serves⟩ := (h.cars c on).mains off
      exact ⟨role.imp_right .inl, state, serves⟩
  refine ⟨List.eq_nil_iff_forall_not_mem.2 fun c mem => ?_,
    List.eq_nil_iff_forall_not_mem.2 fun e mem => ?_, h.no_order fun c => (record c).2.2⟩
  · exact absurd ((record c).2.1.symm.trans (h.queue c mem)) (by decide)
  · have held := (h.listHeld e mem).1
    rcases (record e.car).1 with k | k | k <;> exact absurd (k.symm.trans held) (by decide)

/-- The timers of START, MAINS and OUTAGE: none runs and nothing is cleared (R99, R103, R104, R116). -/
theorem quiet_timers (h : s.RecordsAgree x) (off : s.plan.phase.generator = false) :
    s.plan.clearance ≠ .clear ∧ s.plan.returnTimer = none ∧ s.plan.settleTimer = none ∧
    s.plan.recallDone = false := by
  have timed := h.timed
  have other {p : Phase} (phase : s.plan.phase = p) (g : p.generator = true) : False := by
    rw [phase, g] at off; cases off
  refine ⟨fun k => other (timed.clearance k) rfl,
    Option.not_isSome_iff_eq_none.1 fun k => other (timed.returnTimer k).1 rfl,
    Option.not_isSome_iff_eq_none.1 fun k => other (timed.settleTimer k) rfl,
    timed.recallDone (Phase.quiet_of_generator off)⟩

/-- Every configured car is given its role on leaving START or MAINS (R102), and the recall-failed flags may be
cleared (R52). -/
theorem roled (h : s.RecordsAgree none) (off : s.plan.phase.generator = false) {p : Phase} {v : State}
    (a : s.Announces p v) (told : (v.withPlan s.plan).RecordsAgree none)
    (running : p.generator = true) {f : CarRecord → CarRecord} (key : ∀ r, (f r).key = r.key)
    (reset : f (.atReset .absent) = .atReset .absent)
    (cars : ∀ c, t.car c = f (if s.configured c then giveRole (s.car c) else s.car c))
    (store : t.store = v.store) (ports : t.ports = v.ports) (queue : t.queue = v.queue)
    (list : t.plan.recallList = v.plan.recallList) (order : t.plan.serviceOrder = v.plan.serviceOrder)
    (phase : t.plan.phase = p)
    (timed : t.PhaseTimed) : t.RecordsAgree none := by
  obtain ⟨noQueue, noList, noOrder⟩ := h.mains_empty off
  have given (c : CarIx) (on : s.configured c = true) :=
    CarRecord.giveRole_agrees (off ▸ h.cars c on) (off ▸ h.awaits c (by simp) on)
  have own (c : CarIx) (on : s.configured c = true) : t.car c = f (giveRole (s.car c)) := by
    rw [cars, if_pos on]
  have away (c : CarIx) (g : s.configured c = false) : t.car c = .atReset .absent := by
    rw [cars, if_neg (by rw [g]; decide), (h.absent c g).1, reset]
  have configured := State.configured_of_store (store.trans a.store)
  have list : t.plan.recallList = s.plan.recallList := by rw [list, a.plan]
  have order : t.plan.serviceOrder = s.plan.serviceOrder := by rw [order, a.plan]
  constructor
  · intro c g
    rw [configured] at g
    refine ⟨away c g, ?_⟩
    rw [State.port, ports]
    refine (told.absent c ?_).2
    rw [State.withPlan_configured, State.configured_of_store a.store]
    exact g
  · intro c on
    rw [configured] at on
    rw [own c on, phase, running]
    exact (given c on).1.of_key (key _)
  · intro c _ on
    rw [configured] at on
    rw [own c on, phase, running]
    exact (given c on).2.1.of_key (key _)
  · rw [order, noOrder]; exact List.nodup_nil
  · intro c
    rw [order, noOrder]
    refine iff_of_false (by simp) ?_
    cases on : s.configured c
    · rw [away c on]; decide
    · rw [own c on, CarRecord.inService_of_key (key _), (given c on).2.2]; decide
  · rw [list, noList]; exact List.nodup_nil
  · intro e he
    rw [list, noList] at he; cases he
  · intro c hc
    rw [queue, a.entries, noQueue] at hc; cases hc
  · exact timed

theorem enterOutage (h : s.RecordsAgree none) (off : s.plan.phase.generator = false) :
    (enterOutage s).RecordsAgree none := by
  obtain ⟨clearance, returnTimer, settleTimer, recallDone⟩ := h.quiet_timers off
  have a := enterPhase_announces s .outage
  have told := h.announced .outage
  unfold Machine.enterOutage
  generalize Machine.enterPhase .outage s = v at a told
  obtain ⟨store, ports, queue, plan⟩ := closed_rest v
  refine h.roled off a told rfl (f := fun r => { r with recallFailed := false }) (fun _ => rfl) rfl
    (fun c => ?_) store ports queue (by rw [plan]) (by rw [plan]) (by rw [plan, a.plan]) ?_
  · rw [clearRecallFailed_car, giveRoles_car, ← State.configured_of_store a.store, ← a.car]
    rfl
  · constructor <;> rw [plan, a.plan]
    · exact fun k => absurd k clearance
    · exact fun k => absurd (returnTimer ▸ k : (none : Timer).isSome = true) (by decide)
    · exact fun _ => rfl
    · exact fun _ => recallDone
    · exact fun k => by cases k

theorem enterReturnFromStart (h : s.RecordsAgree none) (off : s.plan.phase.generator = false) :
    (enterReturnFromStart s).RecordsAgree none := by
  obtain ⟨-, returnTimer, settleTimer, -⟩ := h.quiet_timers off
  have a := enterPhase_announces s .returning
  have told := h.announced .returning
  unfold Machine.enterReturnFromStart
  generalize Machine.enterPhase .returning s = v at a told
  obtain ⟨store, ports, queue, plan⟩ := opened_rest v
  refine State.RecordsAgree.noticeSupply ?_ .clear
  refine h.roled off a told rfl (f := id) (fun _ => rfl) rfl (fun c => ?_) store ports queue
    (by rw [← plan]) (by rw [← plan]) (show v.plan.phase = .returning by rw [a.plan]) ?_
  · show (giveRoles v).car c = _
    rw [giveRoles_car, State.configured_of_store a.store, a.car]
    rfl
  · have timing : (openGate (giveRoles v)).plan = { s.plan with phase := .returning } := plan.trans a.plan
    constructor <;> dsimp only <;> rw [timing]
    · exact fun _ => rfl
    · exact fun k => absurd (returnTimer ▸ k : (none : Timer).isSome = true) (by decide)
    · exact fun k => absurd (settleTimer ▸ k : (none : Timer).isSome = true) (by decide)
    · exact fun k => by cases k
    · exact fun k => by cases k

theorem startSettle (h : s.RecordsAgree x) (phase : s.plan.phase = .outage) :
    (startSettle s).RecordsAgree x := by
  unfold Machine.startSettle
  split
  · exact h
  · exact h.retime rfl rfl rfl rfl rfl rfl rfl
      ⟨h.timed.clearance, h.timed.returnTimer, fun _ => phase, h.timed.recallDone, h.timed.service⟩

theorem stopSettle (h : s.RecordsAgree x) : (stopSettle s).RecordsAgree x :=
  h.retime rfl rfl rfl rfl rfl rfl rfl
    ⟨h.timed.clearance, h.timed.returnTimer, fun k => (by cases k), h.timed.recallDone, h.timed.service⟩

/-! ## Leaving the generator, and a phase that empties the queue -/

/-- The generator is left: the records change, the plan is emptied, and each record is one of the new phase. -/
theorem left (h : s.RecordsAgree none) (running : s.plan.phase.generator = true) {p : Phase}
    (quiet : p ≠ .service) {f : CarRecord → CarRecord}
    (reset : f (.atReset .absent) = .atReset .absent)
    (made : ∀ r : CarRecord, r.Agrees true →
      (f r).Agrees p.generator ∧ (f r).Awaits p.generator ∧ (f r).inService = false) :
    (generatorLeft f (Machine.emptied p s)).RecordsAgree none := by
  have told := h.emptied p
  have phase : (Machine.emptied p s).plan.phase = p := by rw [emptied_plan]
  have none := emptied_entries p s
  generalize Machine.emptied p s = v at told phase none
  have made (c : CarIx) (on : v.configured c = true) := made (v.car c) (by
    rw [← running]; exact told.cars c on)
  have now : (generatorLeft f v).plan.phase = p := phase
  refine told.all (f := fun _ => f) (fun c => generatorLeft_car f v c) rfl
    (fun c off => (told.absent c off).2) (fun c off => reset) (fun c on => ?_) (fun c on => ?_) List.nodup_nil
    (fun c => iff_of_false (by simp [generatorLeft]) ?_) List.nodup_nil (fun e he => by cases he)
    (fun c hc => ?_) ?_
  · rw [now]; exact (made c on).1
  · rw [now]; exact (made c on).2.1
  · cases on : v.configured c
    · rw [show (v.withPlan s.plan).car c = .atReset .absent from (told.absent c on).1, reset]; decide
    · rw [show (v.withPlan s.plan).car c = v.car c from rfl, (made c on).2.2]; decide
  · rw [show (generatorLeft f v).queue = v.queue from rfl, none] at hc
    cases hc
  · refine ⟨fun k => (by cases k), fun k => (by cases k), fun k => (by cases k), fun _ => rfl, fun k => ?_⟩
    exact absurd (now.symm.trans k) quiet

theorem enterMains (h : s.RecordsAgree none) (running : s.plan.phase.generator = true) :
    (enterMains s).RecordsAgree none := by
  have begun : (if uncleared s then s.noticePanel .unclearedTransfer else s).RecordsAgree none := by
    split
    · exact h.noticePanel .unclearedTransfer
    · exact h
  have plan : (if uncleared s then s.noticePanel .unclearedTransfer else s).plan = s.plan := by
    split <;> rfl
  rw [enterMains_eq]
  exact begun.left (by rw [plan]; exact running) (by decide) rfl fun _ => CarRecord.returnToMains_agrees

theorem generatorLoss (h : s.RecordsAgree none) (running : s.plan.phase.generator = true) :
    (generatorLoss s).RecordsAgree none :=
  h.left running (by decide) rfl fun _ => CarRecord.loseGenerator_agrees

theorem enterReturn (h : s.RecordsAgree none) (phase : s.plan.phase = .recall ∨ s.plan.phase = .service) :
    (enterReturn s).RecordsAgree none := by
  have running : s.plan.phase.generator = true := by rcases phase with e | e <;> rw [e] <;> rfl
  have timed := h.timed
  have notCleared : s.plan.clearance = .notClear := by
    cases e : s.plan.clearance
    · rfl
    · rcases phase with k | k <;> exact absurd (k.symm.trans (timed.clearance e)) (by decide)
  have settled : s.plan.settleTimer.isSome ≠ true := fun k => by
    rcases phase with e | e <;> exact absurd (e.symm.trans (timed.settleTimer k)) (by decide)
  have told := h.emptied .returning
  have plan := emptied_plan .returning s
  have none := emptied_entries .returning s
  rw [enterReturn_eq]
  generalize Machine.emptied .returning s = v at told plan none
  have made (c : CarIx) (on : v.configured c = true) :=
    CarRecord.settleForReturn_agrees (r := v.car c) (by rw [← running]; exact told.cars c on)
      (by rw [← running]; exact told.awaits c (by simp) on)
  have away (c : CarIx) (off : v.configured c = false) : v.car c = .atReset .absent :=
    (told.absent c off).1
  have phase' : (returnBegun v).plan.phase = .returning := by
    show v.plan.phase = _
    rw [plan]
  have serves (c : CarIx) : (settleForReturn (v.car c)).inService = (v.car c).inService := by
    cases on : v.configured c
    · rw [away c on]; rfl
    · exact (made c on).2.2.1
  refine State.RecordsAgree.clearanceCheck (told.all (f := fun _ => settleForReturn)
    (fun c => returnBegun_car v c) rfl (fun c off => (told.absent c off).2) (fun c off => rfl)
    (fun c on => ?_) (fun c on => ?_) ?_ (fun c => ?_) ?_ (fun e he => ?_) (fun c hc => ?_) ?_)
  · rw [phase']; exact (made c on).1
  · rw [phase']; exact (made c on).2.1
  · show v.plan.serviceOrder.Nodup
    rw [plan]; exact h.orderOnce
  · show c ∈ v.plan.serviceOrder ↔ (settleForReturn (v.car c)).inService = true
    rw [serves, plan]
    exact told.order c
  · show (v.plan.recallList.map fun e => e.car).Nodup
    rw [plan]; exact h.listOnce
  · have listed : e ∈ s.plan.recallList := by
      rw [show s.plan.recallList = v.plan.recallList by rw [plan]]; exact he
    obtain ⟨held, sound⟩ := told.listHeld e listed
    have on := told.configured_of_role (c := e.car) (by rw [held]; decide)
    rw [show (v.withPlan s.plan).car e.car = v.car e.car from rfl, (made e.car on).2.2.2 held]
    exact ⟨held, sound⟩
  · rw [show (returnBegun v).queue = v.queue from rfl, none] at hc
    cases hc
  · refine ⟨fun _ => phase', fun _ => ⟨phase', ?_⟩, fun k => absurd ?_ settled, fun k => ?_, fun k => ?_⟩
    · show v.plan.clearance = .notClear
      rw [plan]; exact notCleared
    · rw [show s.plan.settleTimer = v.plan.settleTimer by rw [plan]]; exact k
    · exact absurd k (by rw [phase']; decide)
    · exact absurd (phase'.symm.trans k) (by decide)

/-! ## The recall list is filled -/

theorem joinPlan_listed (c : CarIx) (s : State) :
    ∀ e ∈ (Machine.joinPlan c s).plan.recallList, e.car = c ∨ e ∈ s.plan.recallList := by
  intro e he
  unfold Machine.joinPlan at he
  split at he
  · exact .inr (List.mem_filter.1 he).1
  · rcases List.mem_cons.1 ((insertBy_perm ..).mem_iff.1 he) with same | old
    · rw [same]; exact .inl rfl
    · exact .inr old

/-- The list is built from the HELD cars whose recall has not failed (R105). -/
theorem listing (l : List CarIx) (once : l.Nodup) : ∀ {s : State}, s.RecordsAgree none →
    (∀ e ∈ s.plan.recallList, e.car ∉ l) →
    (l.foldl (fun t c => if t.role c = .held ∧ (t.car c).recallFailed = false then Machine.joinPlan c t else t)
      s).RecordsAgree none := by
  induction l with
  | nil => exact fun h _ => h
  | cons c l ih =>
    intro s h new
    obtain ⟨fresh, once⟩ := List.nodup_cons.1 once
    have later (e : RecallEntry) (he : e ∈ s.plan.recallList) : e.car ∉ l := fun mem =>
      new e he (List.mem_cons_of_mem _ mem)
    rw [List.foldl_cons]
    split
    · rename_i due
      refine ih once (h.joinPlan due.1 due.2 fun e he same => new e he (by rw [same]; simp)) fun e he => ?_
      rcases joinPlan_listed c s e he with same | old
      · rw [same]; exact fresh
      · exact later e old
    · exact ih once h later

theorem settleExpires (h : s.RecordsAgree none) (phase : s.plan.phase = .outage) :
    (settleExpires s).RecordsAgree none := by
  have timed := h.timed
  have entered : (Machine.enterPhase .recall (Machine.stopSettle s)).RecordsAgree none := by
    refine h.stopSettle.enterPhase (by rw [show (Machine.stopSettle s).plan.phase = .outage from phase]; rfl)
      ⟨fun k => ?_, fun k => ?_, fun k => (by cases k), fun k => (by cases k), fun k => (by cases k)⟩
    · exact absurd (phase.symm.trans (timed.clearance k)) (by decide)
    · exact absurd (phase.symm.trans (timed.returnTimer k).1) (by decide)
  unfold Machine.settleExpires buildList
  generalize Machine.enterPhase .recall (Machine.stopSettle s) = v at entered
  have opened : (openGate v).RecordsAgree none := entered.parts rfl rfl
  exact listing allCars (by decide) (opened.shorten (List.nil_sublist _)) fun e he => by cases he

theorem withdrawReturn (h : s.RecordsAgree none) (phase : s.plan.phase = .returning) :
    (withdrawReturn s).RecordsAgree none := by
  have timed := h.timed
  have withdrawn : State.RecordsAgree none { s with
      plan := { s.plan with clearance := .notClear, returnTimer := none } } :=
    h.retime rfl rfl rfl rfl rfl rfl rfl ⟨fun k => (by cases k), fun k => (by cases k), timed.settleTimer,
      timed.recallDone, timed.service⟩
  have settled : s.plan.settleTimer.isSome ≠ true := fun k =>
    absurd (phase.symm.trans (timed.settleTimer k)) (by decide)
  have entered : (Machine.enterPhase (if s.plan.recallDone then .service else .recall)
      { s with plan := { s.plan with clearance := .notClear, returnTimer := none } }).RecordsAgree none := by
    refine withdrawn.enterPhase ?_ ⟨fun k => (by cases k), fun k => (by cases k),
      fun k => absurd k settled, fun k => ?_, fun k => ?_⟩
    · rw [show ({ s with plan := { s.plan with clearance := .notClear, returnTimer := none } } : State
        ).plan.phase = .returning from phase]
      split <;> rfl
    · dsimp only at k
      split at k <;> cases k
    · dsimp only at k ⊢
      split at k
      · assumption
      · cases k
  unfold Machine.withdrawReturn
  dsimp only
  generalize Machine.enterPhase _ _ = v at entered
  refine List.foldlRecOn allCars _ entered fun u hu c _ => ?_
  split
  · rename_i due
    refine hu.joinPlan due.1 due.2.1 fun e he same => ?_
    have unlisted := due.2.2
    simp only [listed, List.any_eq_false] at unlisted
    exact unlisted e he (by simpa using same)
  · exact hu

/-- A supply report moves the phase (R98 to R101). -/
theorem reportSupply (h : s.RecordsAgree none) (r : SupplyState) :
    (reportSupply r s).RecordsAgree none := by
  have other {p : Phase} (phase : s.plan.phase = p) (g : p.generator = true) :
      s.plan.phase.generator = true := by rw [phase]; exact g
  have outage : (Machine.enterOutage s).plan.phase = .outage := by
    obtain ⟨-, -, -, plan⟩ := closed_rest (Machine.enterPhase .outage s)
    unfold Machine.enterOutage
    rw [plan, enterPhase_plan]
  unfold Machine.reportSupply
  cases phase : s.plan.phase with
  | start =>
    have off : s.plan.phase.generator = false := by rw [phase]; rfl
    cases r with
    | mains =>
      obtain ⟨clearance, returnTimer, settleTimer, recallDone⟩ := h.quiet_timers off
      refine h.enterPhase off.symm ⟨fun k => absurd k clearance, fun k => ?_, fun k => ?_,
        fun _ => recallDone, fun k => by cases k⟩
      · rw [show ({ s with plan := { s.plan with phase := .mains } } : State).plan.returnTimer = none
          from returnTimer] at k
        cases k
      · rw [show ({ s with plan := { s.plan with phase := .mains } } : State).plan.settleTimer = none
          from settleTimer] at k
        cases k
    | genStarting => exact h.enterOutage off
    | genReady => exact (h.enterOutage off).startSettle outage
    | retransfer => exact h.enterReturnFromStart off
    | genLost => exact h.enterOutage off
  | mains =>
    have off : s.plan.phase.generator = false := by rw [phase]; rfl
    cases r with
    | mains => exact h
    | genStarting => exact h.enterOutage off
    | genReady => exact (h.enterOutage off).startSettle outage
    | retransfer => exact h
    | genLost => exact h.enterOutage off
  | outage =>
    cases r with
    | mains => exact h.enterMains (other phase rfl)
    | genReady => exact h.startSettle phase
    | _ => exact h.stopSettle
  | returning =>
    cases r with
    | mains => exact h.enterMains (other phase rfl)
    | genStarting => exact h.generatorLoss (other phase rfl)
    | genReady => exact h.withdrawReturn phase
    | retransfer => exact h
    | genLost => exact h.generatorLoss (other phase rfl)
  | service =>
    cases r with
    | mains => exact h.enterMains (other phase rfl)
    | genStarting => exact h.generatorLoss (other phase rfl)
    | genReady => exact h
    | retransfer => exact h.enterReturn (.inr phase)
    | genLost => exact h.generatorLoss (other phase rfl)
  | _ =>
    cases r with
    | mains => exact h.enterMains (other phase rfl)
    | genStarting => exact h.generatorLoss (other phase rfl)
    | genReady => exact h
    | retransfer => exact h.enterReturn (.inl phase)
    | genLost => exact h.generatorLoss (other phase rfl)

end State.RecordsAgree

end Sys2Proof.Machine
end

section
/-!
PROOFS. A new active table (R41, R43, R156): what it makes of the records and the ports, the records invariant over it,
over a reset and its release (R152, R157, R160), and over every act of a complete request.
-/

namespace Sys2Proof.Machine

variable {s t : State} {x : Option CarIx} {c : CarIx}

/-! ## The ports of a new table -/

/-- The ports of some cars change, and nothing else does. -/
theorem foldl_updPort_rest (f : PortIf → PortIf) (l : List CarIx) (s : State) :
    ∃ ports, l.foldl (fun u c => u.updPort (.car c) f) s = { s with ports := ports } := by
  refine List.foldlRecOn (motive := fun u : State => ∃ ports, u = { s with ports := ports }) l
    (fun u c => u.updPort (.car c) f) ⟨s.ports, rfl⟩ fun u hu c _ => ?_
  obtain ⟨ports, rfl⟩ := hu
  exact ⟨_, rfl⟩

theorem foldl_updPort_port (f : PortIf → PortIf) (p : Port) : ∀ (l : List CarIx), l.Nodup → ∀ s : State,
    (l.foldl (fun u c => u.updPort (.car c) f) s).port p =
      if ∃ c ∈ l, p = .car c then f (s.port p) else s.port p
  | [], _, s => by rw [if_neg (by simp)]; rfl
  | c :: l, once, s => by
    obtain ⟨fresh, once⟩ := List.nodup_cons.1 once
    rw [List.foldl_cons, foldl_updPort_port f p l once, State.updPort_port]
    by_cases own : p = .car c
    · have out : ¬ ∃ d ∈ l, p = .car d := by
        rintro ⟨d, hd, same⟩
        rw [own] at same; cases same; exact fresh hd
      rw [if_neg out, if_pos own, if_pos ⟨c, List.mem_cons_self .., own⟩]
    · have iff : (∃ d ∈ c :: l, p = .car d) ↔ ∃ d ∈ l, p = .car d := by simp [own]
      simp only [iff, if_neg own]

/-- A port that has become absent (R41, R43, log 25). -/
def PortIf.silenced (i : PortIf) : PortIf :=
  { i with awaitSelect := false, shiftIn := [], shiftOut := [], request := none, reply := none, notices := 0 }

/-- A port that has become configured takes its requests from the next select on (R43). -/
def PortIf.awaiting (i : PortIf) : PortIf := { i with awaitSelect := i.selLow }

/-- The state with another active table, its records made to fit; its ports are as they were. -/
def State.tabled (s : State) (i : Image) : State :=
  let a := { s with store := { s.store with active := i, site := .valid } }
  a.updAllCars fun c r => recountCar (s.configured c) (a.configured c) r

/-- The configured count of a table. -/
def configures (i : Image) (c : CarIx) : Bool := decide (c.val < carCount i)

theorem activate_eq (i : Image) (s : State) : activate i s =
    (allCars.filter fun c => !s.configured c && configures i c).foldl
      (fun u c => u.updPort (.car c) .awaiting)
      ((allCars.filter fun c => s.configured c && !configures i c).foldl
        (fun u c => u.updPort (.car c) .silenced) (s.tabled i)) := rfl

theorem allCars_nodup : allCars.Nodup := by decide

theorem activate_rest (i : Image) (s : State) :
    ∃ ports, activate i s = { s.tabled i with ports := ports } := by
  rw [activate_eq]
  obtain ⟨ports, silenced⟩ := foldl_updPort_rest .silenced
    (allCars.filter fun c => s.configured c && !configures i c) (s.tabled i)
  rw [silenced]
  obtain ⟨ports', awaiting⟩ := foldl_updPort_rest .awaiting
    (allCars.filter fun c => !s.configured c && configures i c) { s.tabled i with ports := ports }
  rw [awaiting]
  exact ⟨_, rfl⟩

theorem activate_port (i : Image) (s : State) (p : Port) (other : ∀ c, p ≠ .car c) :
    (activate i s).port p = s.port p := by
  have once (q : CarIx → Bool) : (allCars.filter q).Nodup := allCars_nodup.filter q
  rw [activate_eq, foldl_updPort_port _ _ _ (once _), foldl_updPort_port _ _ _ (once _),
    if_neg (fun ⟨c, _, own⟩ => other c own), if_neg fun ⟨c, _, own⟩ => other c own]
  rfl

/-- A car port that stays configured, or stays absent, is as it was; one that goes absent is silenced; one that
becomes configured awaits its next select. -/
theorem activate_carPort (i : Image) (s : State) (c : CarIx) : (activate i s).port (.car c) =
    if s.configured c = configures i c then s.port (.car c)
    else if s.configured c then (s.port (.car c)).silenced else (s.port (.car c)).awaiting := by
  have once (q : CarIx → Bool) : (allCars.filter q).Nodup := allCars_nodup.filter q
  have mem (q : CarIx → Bool) : (∃ d ∈ allCars.filter q, Port.car c = .car d) ↔ q c = true := by
    constructor
    · rintro ⟨d, hd, same⟩
      cases same
      exact (List.mem_filter.1 hd).2
    · exact fun h => ⟨c, List.mem_filter.2 ⟨mem_allCars c, h⟩, rfl⟩
  rw [activate_eq, foldl_updPort_port _ _ _ (once _), foldl_updPort_port _ _ _ (once _)]
  rw [show (s.tabled i).port (.car c) = s.port (.car c) from rfl]
  simp only [mem]
  cases s.configured c <;> cases configures i c <;> simp

theorem activate_car (i : Image) (s : State) (c : CarIx) :
    (activate i s).car c = recountCar (s.configured c) (configures i c) (s.car c) := by
  obtain ⟨ports, made⟩ := activate_rest i s
  rw [made]
  exact State.updAllCars_car { s with store := { s.store with active := i, site := .valid } }
    (fun c r => recountCar (s.configured c) (configures i c) r) c

theorem activate_configured (i : Image) (s : State) (c : CarIx) :
    (activate i s).configured c = configures i c := by
  obtain ⟨ports, made⟩ := activate_rest i s
  rw [made]
  rfl

theorem CarRecord.atReset_agrees : CarRecord.Agrees false (.atReset .free) ∧
    CarRecord.Awaits false (.atReset .free) := by
  refine ⟨.of_mains (.inl ⟨rfl, rfl⟩) ⟨?_, ?_⟩ ?_ ⟨rfl, rfl⟩ rfl rfl, .of_none rfl rfl rfl⟩ <;>
    simp [CarRecord.atReset]

namespace State.RecordsAgree

theorem activate (h : s.RecordsAgree none) (off : s.plan.phase.generator = false) (i : Image) :
    (activate i s).RecordsAgree none := by
  obtain ⟨noQueue, noList, noOrder⟩ := h.mains_empty off
  obtain ⟨ports, made⟩ := activate_rest i s
  have plan : (Machine.activate i s).plan = s.plan := by rw [made]; rfl
  have queue : (Machine.activate i s).queue = s.queue := by rw [made]; rfl
  have record (c : CarIx) (on : configures i c = true) :
      ((Machine.activate i s).car c).Agrees false ∧ ((Machine.activate i s).car c).Awaits false := by
    rw [activate_car]
    cases was : s.configured c
    · rw [on]; exact CarRecord.atReset_agrees
    · rw [on]; exact ⟨off ▸ h.cars c was, off ▸ h.awaits c (by simp) was⟩
  constructor
  · intro c away
    rw [activate_configured] at away
    rw [activate_car, activate_carPort, away]
    cases was : s.configured c
    · rw [if_pos rfl]; exact h.absent c was
    · rw [if_neg (by decide), if_pos rfl]; exact ⟨rfl, rfl⟩
  · intro c on
    rw [activate_configured] at on
    rw [plan, off]; exact (record c on).1
  · intro c _ on
    rw [activate_configured] at on
    rw [plan, off]; exact (record c on).2
  · rw [plan]; exact h.orderOnce
  · intro c
    rw [plan, noOrder]
    refine iff_of_false (by simp) ?_
    cases on : configures i c
    · rw [activate_car, on]
      cases was : s.configured c
      · rw [(h.absent c was).1]; decide
      · exact fun k => by cases k
    · rw [((record c on).1.mains rfl).2.2.2]; decide
  · rw [plan]; exact h.listOnce
  · intro e he
    rw [plan, noList] at he; cases he
  · intro c hc
    rw [queue, noQueue] at hc; cases hc
  · exact h.timed.of_timing (by rw [plan])

theorem endStoreWrite (h : s.RecordsAgree none) (off : s.plan.phase.generator = false) :
    (endStoreWrite s).RecordsAgree none := by
  have ended : State.RecordsAgree none { s with store := { s.store with
      state := .idle, writing := none, programTimer := none } } := h.parts rfl rfl
  have ended := ended.noticePanel .storeDone
  unfold Machine.endStoreWrite
  dsimp only
  split
  · exact ended
  · exact ended.activate off _

theorem generator_of_mains (phase : s.plan.phase = .start ∨ s.plan.phase = .mains) :
    s.plan.phase.generator = false := by
  rcases phase with e | e <;> rw [e] <;> rfl

theorem activateOnMains (h : s.RecordsAgree none) : (activateOnMains s).RecordsAgree none := by
  unfold Machine.activateOnMains
  split
  · rename_i due; exact h.endStoreWrite (generator_of_mains (.inr due.1))
  · exact h

theorem programmingEnds (h : s.RecordsAgree none) : (programmingEnds s).RecordsAgree none := by
  unfold Machine.programmingEnds
  split
  · rename_i i _ _
    have stored : State.RecordsAgree none { s with store := { s.store with
        nv := .formed i, state := .awaitingActivation, writing := none, programTimer := none } } :=
      h.parts rfl rfl
    dsimp only
    split
    · rename_i phase; exact stored.endStoreWrite (generator_of_mains phase)
    · exact stored
  · exact h

theorem takeSupply (h : s.RecordsAgree none) (u : Byte) : (takeSupply u s).1.RecordsAgree none := by
  unfold Machine.takeSupply
  split
  · exact h
  · exact (h.reportSupply _).activateOnMains

theorem takeSiteWrite (h : s.RecordsAgree x) (i : Image) : (takeSiteWrite i s).1.RecordsAgree x := by
  unfold Machine.takeSiteWrite
  split
  · exact h
  · split
    · exact h
    · split
      · exact h
      · exact h.parts rfl rfl

/-- After a reset each car is FREE or ABSENT, and the plan is empty (R41, R152). -/
theorem of_reset (plan : s.plan = .atReset) (queue : s.queue = .atReset)
    (cars : ∀ c, s.car c = .atReset (if s.configured c then .free else .absent))
    (notices : ∀ c, (s.port (.car c)).notices = 0) : s.RecordsAgree none := by
  have off : s.plan.phase.generator = false := by rw [plan]; rfl
  have record (c : CarIx) (on : s.configured c = true) : s.car c = .atReset .free := by
    rw [cars, if_pos on]
  constructor
  · intro c away
    exact ⟨by rw [cars, away]; rfl, notices c⟩
  · intro c on
    rw [off, record c on]; exact CarRecord.atReset_agrees.1
  · intro c _ on
    rw [off, record c on]; exact CarRecord.atReset_agrees.2
  · rw [plan]; exact List.nodup_nil
  · intro c
    rw [plan, cars]
    cases s.configured c
    · exact iff_of_false (by simp [Plan.atReset]) (by decide)
    · exact iff_of_false (by simp [Plan.atReset]) (by decide)
  · rw [plan]; exact List.nodup_nil
  · intro e he
    rw [plan] at he; cases he
  · intro c hc
    rw [queue] at hc; cases hc
  · refine ⟨fun k => ?_, fun k => ?_, fun k => ?_, fun k => ?_, fun k => ?_⟩ <;> rw [plan] at k ⊢ <;>
      cases k
    rfl

end State.RecordsAgree

end Sys2Proof.Machine
end

section
/-!
PROOFS. A command of a port as its whole units or its cut; the records invariant over every command and every expiry;
and O55.
-/

namespace Sys2Proof.Machine

variable {s t : State} {x : Option CarIx} {c : CarIx} {p : Port}

/-! ## A command of a port is its units -/

/-- These whole units are shifted in, each with its kind. -/
def shiftUnits (p : Port) (units : List (Bool × Byte)) (s : State) : State :=
  units.foldl (fun t u => shiftUnit p u.1 u.2 t) s

theorem shiftArgs_eq (p : Port) (data : List Byte) (s : State) :
    shiftArgs p data s = shiftUnits p (data.map fun d => (true, d)) s := by
  rw [shiftUnits, List.foldl_map]; rfl

/-- The units of an arrival. -/
def arrivalUnits (r : Request) : Arrival → List (Bool × Byte)
  | .opened args => (false, r.code) :: args.map fun d => (true, d)
  | .resumed args => args.map fun d => (true, d)

theorem arrive_eq (p : Port) (r : Request) (u : Arrival) (s : State) :
    arrive p r u s = shiftUnits p (arrivalUnits r u) s := by
  cases u with
  | opened args => exact shiftArgs_eq p args _
  | resumed args => exact shiftArgs_eq p args s

theorem exec_units {i : Instr} (sender : senderOf i = some p) (run : exec i s = .next t) :
    (∃ units, t = shiftUnits p units s) ∨ ∃ bits, t = cutUnit p bits s := by
  have opcode (code : Byte) : ∃ units, shiftOpcode p code s = shiftUnits p units s := ⟨[(false, code)], rfl⟩
  have args (data : List Byte) : ∃ units, shiftArgs p data s = shiftUnits p units s :=
    ⟨_, shiftArgs_eq p data s⟩
  have arrival (r : Request) (u : Arrival) : ∃ units, arrive p r u s = shiftUnits p units s :=
    ⟨_, arrive_eq p r u s⟩
  cases i with
  | trip c u => cases sender; cases run; exact .inl (arrival _ u)
  | withdraw c => cases sender; cases run; exact .inl (opcode _)
  | atSpeed c => cases sender; cases run; exact .inl (opcode _)
  | startFail c => cases sender; cases run; exact .inl (opcode _)
  | stopped c => cases sender; cases run; exact .inl (opcode _)
  | state c u => cases sender; cases run; exact .inl (arrival _ u)
  | profile c => cases sender; cases run; exact .inl (opcode _)
  | profileFieldLatch c units => cases sender; cases run; exact .inl (args units)
  | readCar c => cases sender; cases run; exact .inl (opcode _)
  | supply u => cases sender; cases run; exact .inl (arrival _ u)
  | offer => cases sender; cases run; exact .inl (opcode _)
  | offerFieldLatch units => cases sender; cases run; exact .inl (args units)
  | recovered => cases sender; cases run; exact .inl (opcode _)
  | readSupply => cases sender; cases run; exact .inl (opcode _)
  | reserve u => cases sender; cases run; exact .inl (arrival _ u)
  | gateClaim u => cases sender; cases run; exact .inl (arrival _ u)
  | gateRelease => cases sender; cases run; exact .inl (opcode _)
  | select u => cases sender; cases run; exact .inl (arrival _ u)
  | includeCar u => cases sender; cases run; exact .inl (arrival _ u)
  | releaseCar u => cases sender; cases run; exact .inl (arrival _ u)
  | siteWrite u => cases sender; cases run; exact .inl (arrival _ u)
  | siteRead => cases sender; cases run; exact .inl (opcode _)
  | readAccount => cases sender; cases run; exact .inl (opcode _)
  | readPlan => cases sender; cases run; exact .inl (opcode _)
  | readNotices q => cases sender; cases run; exact .inl (opcode _)
  | readIdent q => cases sender; cases run; exact .inl (opcode _)
  | unknownOpcode q code => cases sender; cases run; exact .inl (opcode _)
  | surplusUnit q data => cases sender; cases run; exact .inl (args [data])
  | replyUnitServed q data => cases sender; cases run; exact .inl (args [data])
  | unitCut q bits => cases sender; cases run; exact .inr ⟨bits, rfl⟩
  | _ => cases sender

/-- The port is no absent car's. -/
def State.hears (s : State) (p : Port) : Prop := ∀ c, p = .car c → s.configured c = true

theorem hears_of_takes (h : ignores s p = false) : s.hears p := by
  rintro c rfl
  simp only [ignores, Bool.or_eq_false_iff] at h
  simpa using h.2

theorem State.hears.of_store (h : s.hears p) (store : t.store = s.store) : t.hears p :=
  fun c own => (State.configured_of_store store c).trans (h c own)

namespace State.RecordsAgree

/-! ## Requests -/

theorem closing (k : Cause) {act : State → State × ReqOutcome} (h : (act s).1.RecordsAgree none) :
    (closing k act s).1.RecordsAgree none := h.closeEvent k s

theorem requestAct (h : s.RecordsAgree none) (hears : s.hears p) (r : Request) (args : List Byte) :
    (requestAct p r args s).1.RecordsAgree none := by
  have closed {k : Cause} {act : State → State × ReqOutcome} (acted : (act s).1.RecordsAgree none) :
      (Machine.closing k act s).1.RecordsAgree none := .closing k acted
  have accepted {f : State → State} (acted : (f s).RecordsAgree none) :
      (accepting f s).1.RecordsAgree none := acted
  unfold Machine.requestAct
  split
  · rename_i d; refine closed ?_; exact h.takeTrip (hears d rfl) _ _
  · refine closed ?_; exact h.withdrawTrip
  · refine closed ?_; exact h.atSpeed
  · exact h.startFailed
  · exact h.carStopped
  · rename_i d
    exact closed (accepted (f := Machine.takeState d (argAt args 0)) (h.takeState (hears d rfl) _))
  · refine closed ?_; exact h.takeSupply _
  · refine closed ?_; exact h.takeRecovered
  · refine closed ?_; exact h.takeReserve _ _
  · refine closed ?_; exact h.takeClaim _
  · refine closed ?_; exact h.releaseClaim
  · refine closed ?_; exact h.takeSelect _
  · refine closed ?_; exact h.takeInclude _ _
  · refine closed ?_; exact h.takeRelease _
  · exact h.takeSiteWrite _
  · exact h

/-- A port's interface but for its notices. -/
theorem lines (h : s.RecordsAgree x) {f : PortIf → PortIf} (notices : ∀ i, (f i).notices = i.notices) :
    (s.updPort p f).RecordsAgree x := h.updPort fun _ _ _ => notices _

theorem supplyLinkUp (h : s.RecordsAgree x) : (supplyLinkUp s).RecordsAgree x := by
  have up : State.RecordsAgree x { s with
      supplyLink := ⟨.up, s.startTimer (tLink s.store.active)⟩ } := h.parts rfl rfl
  unfold Machine.supplyLinkUp
  dsimp only
  split
  · exact up
  · exact up.closeEvent {} s

theorem linkUp (h : s.RecordsAgree none) (hears : s.hears p) : (linkUp p s).RecordsAgree none := by
  cases p with
  | car c => exact h.carLinkUp (hears c rfl)
  | supply => exact h.supplyLinkUp
  | panel => exact h.parts rfl rfl

end State.RecordsAgree

/-- The sender's link coming up leaves the store. -/
theorem linkUp_store (p : Port) (s : State) : (linkUp p s).store = s.store := by
  cases p with
  | car c => rfl
  | supply => exact (supplyLinkUp_only s).store
  | panel => rfl

namespace State.RecordsAgree

theorem complete (h : s.RecordsAgree none) (hears : s.hears p) {act : State → State × ReqOutcome}
    (acts : ∀ u : State, u.RecordsAgree none → u.hears p → (act u).1.RecordsAgree none) :
    (complete p act s).RecordsAgree none := by
  have cleared : (setRequest p none s).RecordsAgree none := h.lines fun _ => rfl
  have heard : (setRequest p none s).hears p := hears
  have acted := acts _ (cleared.linkUp heard) (heard.of_store (linkUp_store p _))
  exact acted.lines (f := fun i => { i with outcome := _ }) fun _ => rfl

theorem noticeProtocol (h : s.RecordsAgree x) : (noticeProtocol p s).RecordsAgree x := by
  cases p with
  | car c => exact h.noticeCar c .protocol
  | supply => exact h.noticeSupply .protocol
  | panel => exact h.noticePanel .protocol

theorem opcodeUnit (h : s.RecordsAgree none) (hears : s.hears p) (code : Byte) :
    (opcodeUnit p code s).RecordsAgree none := by
  have ended : (endPrevious p s).RecordsAgree none := h.lines fun _ => rfl
  have heard : (endPrevious p s).hears p := hears
  unfold Machine.opcodeUnit
  split
  · unfold startRequest
    split
    · exact (ended.linkUp heard).lines (f := fun i => { i with reply := _ }) fun _ => rfl
    · split
      · exact ended.complete heard fun _ hu _ => hu
      · split
        · exact ended.complete heard fun _ hu heard => hu.requestAct heard _ _
        · exact ended.lines fun _ => rfl
  · exact ended.complete heard fun _ hu _ => hu.noticeProtocol

theorem profileUnit (h : s.RecordsAgree none) (on : s.configured c = true) (q : InProgress) :
    (profileUnit c q s).RecordsAgree none := by
  have hears {u : State} (on : u.configured c = true) : u.hears (.car c) := fun d own => by cases own; exact on
  have latched (u : State) (hu : u.RecordsAgree none) (on : u.configured c = true) :
      (u.updCar c fun r => { r with profile := latchProfile q.args r.profile }).RecordsAgree none :=
    hu.edit on (fun _ => rfl) fun _ => rfl
  unfold Machine.profileUnit
  split
  · exact h.lines fun _ => rfl
  · split
    · exact h.complete (hears on) fun _ hu _ => hu
    · dsimp only
      split
      · exact (latched s h on).lines fun _ => rfl
      · exact h.complete (hears on) fun u hu heard => latched u hu (heard c rfl)

theorem offerUnit (h : s.RecordsAgree none) (q : InProgress) : (offerUnit q s).RecordsAgree none := by
  unfold Machine.offerUnit
  split
  · exact (h.offerStep q.args).lines fun _ => rfl
  · exact h.complete (fun _ own => by cases own) fun _ hu _ => hu.offerStep q.args

/-- Delivered notices are removed, and none appears (R145). -/
theorem serveUnit (h : s.RecordsAgree none) (hears : s.hears p) (rep : Reply) :
    (s.updPort p (serveUnit rep)).RecordsAgree none :=
  h.updPort fun c own off => absurd ((hears c own).symm.trans off) (by decide)

theorem argUnit (h : s.RecordsAgree none) (hears : s.hears p) (data : Byte) :
    (argUnit p data s).RecordsAgree none := by
  unfold Machine.argUnit
  split
  · unfold handUnit
    split
    · exact h.profileUnit (hears _ rfl) _
    · exact h.offerUnit _
    · split
      · exact h.lines fun _ => rfl
      · exact h.complete hears fun _ hu heard => hu.requestAct heard _ _
  · split
    · exact h.serveUnit hears _
    · exact h

/-! ## Units -/

theorem clockBit (h : s.RecordsAgree none) (b : Bool) : (clockBit p s b).RecordsAgree none := by
  unfold Machine.clockBit
  split
  · exact h
  · rename_i takes
    have takes : ignores s p = false := by simpa using takes
    extract_lets i t
    have shifted : t.RecordsAgree none := h.updPort fun c own off =>
      absurd ((hears_of_takes takes c own).symm.trans off) (by decide)
    have heard : t.hears p := (hears_of_takes takes).of_store rfl
    split
    · exact shifted
    · split
      · exact shifted.argUnit heard _
      · exact shifted.opcodeUnit heard _

theorem bits (h : s.RecordsAgree none) (l : List Bool) :
    (l.foldl (Machine.clockBit p) s).RecordsAgree none :=
  List.foldlRecOn l _ h fun _ ht b _ => ht.clockBit b

theorem shiftUnit (h : s.RecordsAgree none) (kind : Bool) (data : Byte) :
    (shiftUnit p kind data s).RecordsAgree none :=
  have begun : (beginUnit p s).RecordsAgree none := h.lines fun _ => rfl
  begun.bits _

theorem cutUnit (h : s.RecordsAgree none) (l : List Bool) : (cutUnit p l s).RecordsAgree none :=
  have begun : (beginUnit p s).RecordsAgree none := h.lines fun _ => rfl
  (begun.bits l).lines (f := fun i => { i with selLow := false, awaitSelect := false, shiftIn := [] }) fun _ => rfl

/-! ## Commands -/

theorem sent (h : s.RecordsAgree none) {i : Instr} (sender : senderOf i = some p)
    (run : exec i s = .next t) : t.RecordsAgree none := by
  rcases exec_units sender run with ⟨units, rfl⟩ | ⟨l, rfl⟩
  · exact List.foldlRecOn units _ h fun _ ht u _ => ht.shiftUnit u.1 u.2
  · exact h.cutUnit l

end State.RecordsAgree

end Sys2Proof.Machine
end

section
/-!
PROOFS. The records invariant and what a sound state promises say the same of the records; so every step keeps what
O55 says.
-/

namespace Sys2Proof.Machine

variable {s t : State} {c : CarIx}

/-- With a count of 0 no car counts toward Krec. -/
theorem not_inRecall_of_count (none : s.recallCount = 0) (c : CarIx) : s.inRecall c = false := by
  have empty := List.length_eq_zero_iff.1 none
  simpa using List.filter_eq_nil_iff.1 empty c (mem_allCars c)

theorem not_inService_of_count (none : s.serviceCount = 0) (c : CarIx) : s.inService c = false := by
  have empty := List.length_eq_zero_iff.1 none
  simpa using List.filter_eq_nil_iff.1 empty c (mem_allCars c)

/-- After a reset a port is at its reset values but for its SELn line, and for notice SITE_INVALID on the panel
port (R152, R159). -/
theorem portsAtRelease_carPort {ports : Vector PortIf 14} {b : Bool} (made : s.ports = portsAtRelease ports b)
    (c : CarIx) : s.port (.car c) = ports[(portIx (.car c)).val].afterReset := by
  have low : (portIx (.car c)).val ≠ 13 := by simp [portIx]; omega
  simp [State.port, made, portsAtRelease, low]

theorem carsAtReset_car (made : s.cars = carsAtReset s.store.active) (c : CarIx) :
    s.car c = .atReset (if s.configured c then .free else .absent) := by
  simp [State.car, made, carsAtReset, State.configured]

namespace State.RecordsAgree

theorem of_sound (h : s.Sound) : s.RecordsAgree none := by
  have consistent := h.consistent
  have records := h.records
  constructor
  · exact fun c off => ⟨(h.absent c off).1, (h.absent c off).2.2.2⟩
  · intro c on
    refine ⟨fun off => ?_, fun running => records.generatorRole running c on, records.preLossLost c,
      fun running => records.preLossRole running c, records.linkTimer c, records.recallSlot c,
      records.recallTimer c, consistent.waitingRole c, fun some => ?_⟩
    · have quiet := Phase.quiet_of_generator off
      obtain ⟨recalled, serving⟩ := h.bounded.quietNone quiet
      exact ⟨records.mainsRole off c on, ((consistent.quiet quiet).2 c).1, not_inRecall_of_count recalled c,
        not_inService_of_count serving c⟩
    · obtain ⟨serves, busy⟩ := records.pendDesel c some
      refine ⟨serves, fun waits => ?_⟩
      rcases busy with moves | lost
      · rw [show (s.trip c).state = .waiting from waits] at moves; cases moves
      · rcases consistent.waitingRole c waits with e | e <;>
          exact absurd (lost.symm.trans e) (by decide)
  · exact fun c _ _ => ⟨records.pendExcl c, records.pendUnavail c, fun some => (records.pendDesel c some).2⟩
  · exact records.serviceOrder.1
  · exact records.serviceOrder.2
  · exact consistent.listNodup
  · exact consistent.listHeld
  · exact fun c => (consistent.queueExact c).1
  · exact h.timed

/-- What a record says of itself, a configured car's by the rules and an absent car's by its reset values. -/
theorem record (h : s.RecordsAgree none) {P : CarRecord → Prop} (reset : P (.atReset .absent))
    (on : ∀ r : CarRecord, r.Agrees s.plan.phase.generator → r.Awaits s.plan.phase.generator → P r)
    (c : CarIx) : P (s.car c) := by
  cases e : s.configured c
  · rw [(h.absent c e).1]; exact reset
  · exact on _ (h.cars c e) (h.awaits c (by simp) e)

theorem sound (h : s.RecordsAgree none) : s.RecordsSound where
  mainsRole off c on := ((h.cars c on).mains off).1
  generatorRole running c on := (h.cars c on).running running
  preLossLost := h.record (P := fun r => r.preLoss.isSome = true → r.role = .lost) (by decide)
    fun _ k _ => k.preLossLost
  preLossRole running := h.record (P := fun r => r.role = .lost → r.preLoss.any _ = true)
    (fun k => by cases k) fun _ k _ => k.preLossRole running
  linkTimer := h.record (P := fun r => r.linkTimer.isSome = true ↔ r.link = .up) (by decide)
    fun _ k _ => k.linkTimer
  recallSlot := h.record (P := fun r => r.slotStart.isSome = true ↔ r.inRecall = true) (by decide)
    fun _ k _ => k.recallSlot
  recallTimer := h.record (P := fun r => r.recallTimer.isSome = true → r.inRecall = true) (by decide)
    fun _ k _ => k.recallTimer
  serviceOrder := ⟨h.orderOnce, h.order⟩
  pendExcl := h.record (P := fun r => r.pendExcl = true →
    r.trip.state.moving = true ∨ r.role = .lost ∧ s.plan.phase.generator = true) (fun k => by cases k)
    fun _ _ k => k.pendExcl
  pendUnavail := h.record (P := fun r => r.pendUnavail = true → r.trip.state.moving = true)
    (by decide) fun _ _ k => k.pendUnavail
  pendDesel := h.record (P := fun r => r.pendDesel = true →
    r.inService = true ∧ (r.trip.state.moving = true ∨ r.role = .lost)) (fun k => by cases k)
    fun _ k l some => ⟨(k.pendDesel some).1, l.pendDesel some⟩

/-! ## Commands that no port sends -/

theorem released (n : NvStore) (carsel : BitVec 2) (single : Bool) (ports : Vector PortIf 14)
    (now freeIx : Nat) (pending : List Instr) :
    (State.released n carsel single ports now freeIx pending).RecordsAgree none :=
  .of_reset rfl rfl (carsAtReset_car rfl) fun c => by
    rw [portsAtRelease_carPort (ports := ports) rfl]; rfl

theorem heldInReset (s : State) : (heldInReset s).RecordsAgree none :=
  .of_reset rfl rfl (carsAtReset_car rfl) fun c => by
    rw [portsAtRelease_carPort (ports := s.ports) rfl]; rfl

/-- An act that its condition guards. -/
theorem guarded {P : Prop} {inst : Decidable P} {u : State} (h : s.RecordsAgree none)
    (acts : P → u.RecordsAgree none) (run : Host.Outcome.next (if P then u else s) = (.next t : Answer)) :
    t.RecordsAgree none := by
  cases run
  split
  · rename_i due; exact acts due
  · exact h

/-- A command of no port: a timer's, the store's or the reset's. -/
theorem unsent (h : s.RecordsAgree none) (consistent : s.Consistent) {i : Instr} (own : senderOf i = none)
    (run : exec i s = .next t) : t.RecordsAgree none := by
  have closed {u : State} (hu : u.RecordsAgree none) : (Machine.closeEvent {} s u).RecordsAgree none :=
    hu.closeEvent {} s
  cases i with
  | carLinkTimeout c => exact h.guarded (fun due => closed (h.loseCarLink due.1)) run
  | supplyLinkTimeout =>
    refine h.guarded (fun _ => State.RecordsAgree.noticePanel ?_ .supplySilent) run
    exact h.parts rfl rfl
  | panelLinkTimeout =>
    refine h.guarded (fun _ => State.RecordsAgree.noticeSupply ?_ .panelSilent) run
    exact h.parts rfl rfl
  | settleExpiry => exact h.guarded (fun due => closed (h.settleExpires due.1)) run
  | returnTimerExpiry => exact h.guarded (fun due => h.forceClearance due.1) run
  | recallSupervisionExpiry c => exact h.guarded (fun due => closed (h.recallExpires due.1)) run
  | startWindowExpiry =>
    refine h.guarded (fun due => h.startWindowExpires fun d holder => ?_) run
    obtain ⟨c, held, starts⟩ := consistent.holder.1 due.1
    rw [holder] at held
    cases held
    exact h.configured_of_trip (by rw [starts]; decide)
  | panelWindowExpiry => exact h.guarded (fun _ => h.endPanelHold.noticePanel .startOverdue) run
  | recoveryExpiry =>
    refine h.guarded (fun _ => closed ?_) run
    exact h.parts rfl rfl
  | fairnessExpiry =>
    refine h.guarded (fun _ => closed ?_) run
    exact h.parts rfl rfl
  | headAgeExpiry =>
    refine h.guarded (fun _ => closed ?_) run
    exact h.parts rfl rfl
  | shedSupervisionExpiry c => exact h.guarded (fun _ => h.shedExpires.closeEvent _ _) run
  | storeProgrammingEnd => exact h.guarded (fun _ => closed h.programmingEnds) run
  | reset => cases run; exact .heldInReset s
  | resetRelease carsel single =>
    exact h.guarded (fun _ => .released s.store.nv carsel single s.ports s.now s.freeIx s.pending) run
  | _ => cases own

end State.RecordsAgree

/-! ## Every step -/

/-- What every command keeps of a state whose waiting commands and free values are set aside, every step keeps. -/
theorem step_commands {P : State → Prop} (run : step s = .next t) (idle : P (tick s))
    (command : ∀ (i : Instr) (pending : List Instr) (freeIx : Nat),
      exec i { s with pending := pending, freeIx := freeIx } = .next t → P t) : P t := by
  unfold step at run
  split at run
  · exact command _ _ s.freeIx run
  · unfold Machine.idle at run
    split at run
    · cases run; exact idle
    · exact command _ s.pending s.freeIx run
    · exact command _ s.pending _ run

theorem State.Sound.recordsAgree_step (h : s.Sound) (run : step s = .next t) : t.RecordsAgree none := by
  have agree := State.RecordsAgree.of_sound h
  refine step_commands (P := State.RecordsAgree none) run (agree.parts rfl rfl) fun i pending freeIx run => ?_
  have waiting : State.RecordsAgree none { s with pending := pending, freeIx := freeIx } :=
    agree.parts rfl rfl
  cases sender : senderOf i with
  | none => exact waiting.unsent (h.consistent.withPending pending freeIx) sender run
  | some p => exact waiting.sent sender run

/-- Settles O55: the records invariant, which a sound state has, is kept by every act of every command. -/
theorem recordsAndTimersKept : Obligations.RecordsAndTimersKept := by
  intro s t sound run
  have agree := sound.recordsAgree_step run
  exact ⟨agree.sound, agree.timed⟩

end Sys2Proof.Machine
end

section
/-!
PROOFS. What no act but a new active table touches: the store, and of each port everything but its notices (R135, R136,
R138, R143).
-/

namespace Sys2Proof.Machine

variable {s t u : State} {c : CarIx} {p : Port}

/-- The store is as it was, and so is each port but for its notices. -/
structure Told (s t : State) : Prop where
  store : t.store = s.store
  framing : ∀ p, (t.port p).framing = (s.port p).framing

namespace Told

theorem parts (store : t.store = s.store) (ports : t.ports = s.ports) : Told s t :=
  ⟨store, fun p => by rw [State.port, ports]; rfl⟩

theorem refl (s : State) : Told s s := parts rfl rfl

theorem trans (h : Told s t) (k : Told t u) : Told s u :=
  ⟨k.store.trans h.store, fun p => (k.framing p).trans (h.framing p)⟩

theorem of_only (h : OnlyDecisions s t) : Told s t := ⟨h.store, h.framing⟩

theorem only (h : Told s t) (k : OnlyDecisions t u) : Told s u := h.trans (.of_only k)

theorem thenParts (h : Told s t) (store : u.store = t.store) (ports : u.ports = t.ports) : Told s u :=
  h.trans (.parts store ports)

theorem updCar (h : Told s t) (c : CarIx) (f : CarRecord → CarRecord) : Told s (t.updCar c f) :=
  h.thenParts rfl rfl

theorem updTrip (h : Told s t) (c : CarIx) (f : Trip → Trip) : Told s (t.updTrip c f) := h.thenParts rfl rfl

theorem noticePanel (h : Told s t) (k : PanelNotice) : Told s (t.noticePanel k) :=
  h.only (.setNotice t _ _)

theorem noticeSupply (h : Told s t) (k : SupplyNotice) : Told s (t.noticeSupply k) :=
  h.only (.setNotice t _ _)

theorem noticeCar (h : Told s t) (c : CarIx) (k : CarNotice) : Told s (t.noticeCar c k) :=
  h.only (.noticeCar t c k)

theorem closeEvent (h : Told s t) (k : Cause) (s0 : State) : Told s (closeEvent k s0 t) :=
  h.only (closeEvent_only k s0 t)

/-- A fold of acts each of which tells of nothing else. -/
theorem foldl {α : Type} {f : State → α → State} (told : ∀ u a, Told u (f u a)) (l : List α) (h : Told s t) :
    Told s (l.foldl f t) :=
  List.foldlRecOn (motive := Told s) l f h fun u hu a _ => hu.trans (told u a)

/-! ## Acts of the car ports -/

theorem takeTrip (c : CarIx) (dir load : Byte) (s : State) : Told s (takeTrip c dir load s).1 := by
  have computed : Told s (computeTrip c dir load s) := .parts rfl rfl
  have refused {u : State} (h : Told s u) (r : RefuseReason) : Told s (refuseTrip c r u).1 :=
    h.only (refuseTrip_only (.refl u) c r)
  have taken : Told s (match (s.trip c).state with
      | .starting | .running => refuseTrip c .busy s
      | .waiting => updateTrip c dir load s
      | .none => freshTrip c dir load s).1 := by
    split
    · exact refused (.refl s) _
    · exact refused (.refl s) _
    · unfold updateTrip
      dsimp only
      split
      · exact refused ((computed.only (removeEntry_only (.refl _) c)).updTrip c _) _
      · exact computed
    · unfold freshTrip
      dsimp only
      split
      · exact refused computed _
      · unfold admitEntry
        extract_lets w
        have waiting : Told s w := computed.thenParts rfl rfl
        exact (waiting.only (setEntries_only (.refl w) _)).thenParts rfl rfl
  unfold Machine.takeTrip
  split
  · exact .refl s
  · exact .refl s
  · exact refused (.refl s) _
  · exact refused (.refl s) _
  all_goals
    split
    · exact refused (.refl s) _
    · exact taken

theorem startFailed (c : CarIx) (s : State) : Told s (startFailed c s) := by
  unfold Machine.startFailed
  split
  · exact .of_only (tripEnded_only (.refl s) c)
  · exact .refl s

theorem carStopped (c : CarIx) (s : State) : Told s (carStopped c s) := by
  unfold Machine.carStopped
  split
  · exact .of_only (tripEnded_only (.refl s) c)
  · exact .refl s

theorem takeState (c : CarIx) (b : Byte) (s : State) : Told s (takeState c b s) := by
  have recorded : Told s (recordStatus c b s) := .parts rfl rfl
  exact recorded.only (parkingCheck_only (motionCheck_only (availabilityRules_only
    (resolveReturn_only (.refl _) c) c) c) c)

/-! ## Acts of the supply and panel ports -/

theorem buildList (s : State) : Told s (buildList s) := by
  refine Told.foldl (fun u c => ?_) allCars (.parts rfl rfl)
  split
  · exact .of_only (joinPlan_only (.refl u) c)
  · exact .refl u

theorem dropAllEntries (s : State) : Told s (dropAllEntries s) :=
  (Told.foldl (fun u c => .of_only (dropEntry_only (.refl u) c .phase)) s.queue.entries (.refl s)).only
    (setEntries_only (.refl _) [])

theorem emptied (p : Phase) (s : State) : Told s (emptied p s) :=
  (Told.of_only (enterPhase_only (.refl s) p)).trans (.dropAllEntries _)

theorem enterOutage (s : State) : Told s (enterOutage s) :=
  have entered := enterPhase_only (.refl s) .outage
  have rest := closed_rest (Machine.enterPhase .outage s)
  (Told.of_only entered).thenParts rest.1 rest.2.1

theorem startSettle (s : State) : Told s (startSettle s) := by
  unfold Machine.startSettle
  split
  · exact .refl s
  · exact .parts rfl rfl

theorem generatorLeft (f : CarRecord → CarRecord) (v : State) : Told v (generatorLeft f v) := .parts rfl rfl

theorem enterMains (s : State) : Told s (enterMains s) := by
  rw [enterMains_eq]
  refine Told.trans ?_ (.generatorLeft _ _)
  split
  · exact ((Told.refl s).noticePanel .unclearedTransfer).trans (.emptied _ _)
  · exact .emptied _ _

theorem withdrawReturn (s : State) : Told s (withdrawReturn s) := by
  have withdrawn : Told s { s with
      plan := { s.plan with clearance := .notClear, returnTimer := none } } := .parts rfl rfl
  unfold Machine.withdrawReturn
  dsimp only
  have entered := withdrawn.only (enterPhase_only (.refl _) (if s.plan.recallDone then .service else .recall))
  generalize enterPhase _ _ = v at entered
  refine Told.foldl (fun u c => ?_) allCars entered
  split
  · exact .of_only (joinPlan_only (.refl u) c)
  · exact .refl u

theorem enterReturnFromStart (s : State) : Told s (enterReturnFromStart s) := by
  have entered := Told.of_only (enterPhase_only (.refl s) .returning)
  unfold Machine.enterReturnFromStart
  generalize enterPhase .returning s = v at entered
  have rest := opened_rest v
  refine Told.noticeSupply ?_ .clear
  exact entered.thenParts rest.1 rest.2.1

theorem enterReturn (s : State) : Told s (enterReturn s) := by
  rw [enterReturn_eq]
  have begun : Told (Machine.emptied .returning s) (returnBegun (Machine.emptied .returning s)) := .parts rfl rfl
  exact ((Told.emptied .returning s).trans begun).only (clearanceCheck_only (.refl _))

theorem reportSupply (r : SupplyState) (s : State) : Told s (reportSupply r s) := by
  have outage : Told s (Machine.startSettle (Machine.enterOutage s)) :=
    (Told.enterOutage s).trans (.startSettle _)
  have lost : Told s (generatorLoss s) := by
    rw [generatorLoss_eq]; exact (Told.emptied .outage s).trans (.generatorLeft _ _)
  unfold Machine.reportSupply
  cases s.plan.phase with
  | start =>
    cases r with
    | mains => exact .of_only (enterPhase_only (.refl s) .mains)
    | genStarting => exact .enterOutage s
    | genReady => exact outage
    | retransfer => exact .enterReturnFromStart s
    | genLost => exact .enterOutage s
  | mains =>
    cases r with
    | genStarting => exact .enterOutage s
    | genReady => exact outage
    | genLost => exact .enterOutage s
    | _ => exact .refl s
  | outage =>
    cases r with
    | mains => exact .enterMains s
    | genReady => exact .startSettle s
    | _ => exact .parts rfl rfl
  | returning =>
    cases r with
    | mains => exact .enterMains s
    | genReady => exact .withdrawReturn s
    | retransfer => exact .refl s
    | _ => exact lost
  | _ =>
    cases r with
    | mains => exact .enterMains s
    | genReady => exact .refl s
    | retransfer => exact .enterReturn s
    | _ => exact lost

theorem takeReserve (entry : Byte) (amount : Nat) (s : State) : Told s (takeReserve entry amount s).1 := by
  unfold Machine.takeReserve
  split
  · exact .refl s
  · dsimp only
    split <;> exact .parts rfl rfl

theorem takeRecovered (s : State) : Told s (takeRecovered s) := by
  unfold Machine.takeRecovered
  split
  · exact .parts rfl rfl
  · exact .refl s

theorem takeClaim (b : Byte) (s : State) : Told s (takeClaim b s).1 := by
  unfold Machine.takeClaim
  split
  · exact .refl s
  · exact .refl s
  · exact .refl s
  all_goals
    split
    · exact .refl s
    · split
      · exact .refl s
      · split
        · exact .refl s
        · exact .parts rfl rfl

theorem endPanelHold (s : State) : Told s (endPanelHold s) := by
  unfold Machine.endPanelHold
  dsimp only
  split <;> exact .parts rfl rfl

theorem releaseClaim (s : State) : Told s (releaseClaim s).1 := by
  unfold Machine.releaseClaim
  split
  · exact .endPanelHold s
  · split
    · exact .parts rfl rfl
    · exact .refl s

theorem takeSelect (args : List Byte) (s : State) : Told s (takeSelect args s) := by
  unfold Machine.takeSelect
  dsimp only
  split
  · exact .parts rfl rfl
  · split
    · refine Told.foldl (fun u c => ?_) allCars (.parts rfl rfl)
      unfold leaveOut
      split
      · exact .refl u
      · split
        · split
          · exact .of_only (deselect_only (.refl u) c)
          · exact .parts rfl rfl
        · split
          · exact .parts rfl rfl
          · exact .refl u
    · exact .parts rfl rfl

theorem excludeCar (c : CarIx) (s : State) : Told s (excludeCar c s) := by
  unfold Machine.excludeCar
  split
  · have marked : Told s (s.updCar c fun r => { r with included := false }) := .parts rfl rfl
    exact (marked.noticeCar c .excluded).only (applyExclusion_only (.refl _) c)
  · exact .refl s

theorem admitCar (c : CarIx) (s : State) : Told s (admitCar c s) := by
  have admitted : Told s (s.updCar c fun r =>
      { r with included := true, recallFailed := false, pendExcl := false }) := .parts rfl rfl
  unfold Machine.admitCar
  dsimp only
  split
  · exact (admitted.updCar c _).only (handBack_only (.refl _) c)
  · split
    · exact admitted.only (handBack_only (.refl _) c)
    · exact admitted

theorem takeInclude (ix code : Byte) (s : State) : Told s (takeInclude ix code s).1 := by
  unfold Machine.takeInclude
  split
  · exact .refl s
  · split
    · exact .refl s
    · split
      · exact .excludeCar _ s
      · exact .admitCar _ s

theorem takeRelease (ix : Byte) (s : State) : Told s (takeRelease ix s).1 := by
  unfold Machine.takeRelease
  split
  · exact .refl s
  · split
    · exact .refl s
    · split
      · exact .of_only (endFrozen_only (.refl s) _ .unavailable)
      · exact .parts rfl rfl

theorem supplyLinkUp (s : State) : Told s (supplyLinkUp s) := by
  have up : Told s { s with supplyLink := ⟨.up, s.startTimer (tLink s.store.active)⟩ } := .parts rfl rfl
  unfold Machine.supplyLinkUp
  dsimp only
  split
  · exact up
  · exact up.closeEvent {} s

theorem linkUp (p : Port) (s : State) : Told s (linkUp p s) := by
  cases p with
  | car c => exact .parts rfl rfl
  | supply => exact .supplyLinkUp s
  | panel => exact .parts rfl rfl

theorem offerStep (args : List Byte) (s : State) : Told s (offerStep args s) :=
  have latched : Told s { s with account := latchOffer args s.account } := .parts rfl rfl
  latched.closeEvent {} s

theorem noticeProtocol (p : Port) (s : State) : Told s (noticeProtocol p s) := by
  cases p with
  | car c => exact (Told.refl s).noticeCar c .protocol
  | supply => exact (Told.refl s).noticeSupply .protocol
  | panel => exact (Told.refl s).noticePanel .protocol

/-! ## Expiries -/

theorem loseCarLink (c : CarIx) (s : State) : Told s (loseCarLink c s) := by
  have silent : Told s (s.updCar c fun r => { r with link := .lost, linkTimer := none }) := .parts rfl rfl
  have frozen (u : State) : Told u (freezeCar c u) := by
    unfold freezeCar
    extract_lets t p v
    have left : Told u v := (Told.of_only (dropEntry_only (.refl u) c .link)).thenParts rfl rfl
    refine Told.noticePanel ?_ .carLost
    split
    · exact left
    · exact left.thenParts rfl rfl
  unfold Machine.loseCarLink
  dsimp only
  split
  · exact silent.trans (frozen _)
  · exact silent

theorem settleExpires (s : State) : Told s (settleExpires s) := by
  have stopped : Told s (stopSettle s) := .parts rfl rfl
  have entered := stopped.only (enterPhase_only (.refl _) .recall)
  unfold Machine.settleExpires
  generalize enterPhase .recall (stopSettle s) = v at entered
  have opened : Told s (openGate v) := entered.thenParts rfl rfl
  exact opened.trans (.buildList _)

theorem recallExpires (c : CarIx) (s : State) : Told s (recallExpires c s) := by
  have stopped : Told s (s.updCar c fun r => { r with recallTimer := none }) := .parts rfl rfl
  have told := stopped.noticePanel .recallFailed
  unfold Machine.recallExpires
  dsimp only
  split
  · exact told.thenParts rfl rfl
  · split
    · exact told.thenParts rfl rfl
    · have dropped := told.only (dropEntry_only (.refl _) c .role)
      exact dropped.thenParts rfl rfl

theorem startWindowExpires (s : State) : Told s (startWindowExpires s) := by
  unfold Machine.startWindowExpires
  split
  · refine Told.noticePanel ?_ .startOverdue
    exact .parts rfl rfl
  · exact .refl s

theorem shedExpires (c : CarIx) (s : State) : Told s (shedExpires c s) := by
  unfold Machine.shedExpires
  refine Told.noticePanel ?_ .shedOverdue
  exact .parts rfl rfl

theorem forceClearance (s : State) : Told s (forceClearance s) := by
  have cleared : Told s { s with plan := { s.plan with clearance := .clear, returnTimer := none } } :=
    .parts rfl rfl
  exact (cleared.noticeSupply .clear).noticePanel .returnForced

end Told

end Sys2Proof.Machine
end

section
/-!
PROOFS. The lines of every port and the Site Store through every command (R41, R43, R135, R136, R138, R143, R148, R154,
R156), and O51.
-/

namespace Sys2Proof.Machine

variable {s t u : State} {c : CarIx} {p : Port} {o : Option Port}

/-! ## One port -/

/-- The port is an absent car's. -/
def State.absentPort (s : State) : Port → Bool
  | .car c => !s.configured c
  | .supply | .panel => false

/-- What the lines and the exchange of a port owe one another (R41, R43, R135, R136, R138, R143, R148). -/
structure PortIf.Lined (p : Port) (absent : Bool) (i : PortIf) : Prop where
  out : ∃ n, i.shiftOut = (unitBits true i.sending).take n
  awaits : i.awaitSelect = true → i.selLow = true ∧ i.request = none ∧ i.reply = none ∧
    (∃ c, p = .car c) ∧ absent = false
  own : ∀ q, i.request = some q → q.req ∈ requestsOf p
  unfinished : ∀ q, i.request = some q → q.args.length < q.req.argUnits q.args
  serves : ∀ rep, i.reply = some rep → i.request = none ∧ rep.next < rep.units.length
  quiet : absent = true → i.request = none ∧ i.reply = none

namespace PortIf.Lined

variable {absent : Bool} {i j : PortIf}

theorem of_framing (h : i.Lined p absent) (same : j.framing = i.framing) : j.Lined p absent := by
  have field {α : Type} (f : PortIf → α) : f j.framing = f i.framing := congrArg f same
  have out : j.shiftOut = i.shiftOut := field PortIf.shiftOut
  have sending : j.sending = i.sending := field PortIf.sending
  have await : j.awaitSelect = i.awaitSelect := field PortIf.awaitSelect
  have low : j.selLow = i.selLow := field PortIf.selLow
  have request : j.request = i.request := field PortIf.request
  have reply : j.reply = i.reply := field PortIf.reply
  constructor
  · rw [out, sending]; exact h.out
  · rw [await, low, request, reply]; exact h.awaits
  · rw [request]; exact h.own
  · rw [request]; exact h.unfinished
  · rw [request, reply]; exact h.serves
  · rw [request, reply]; exact h.quiet

/-- The request ends, and the reply may end with it. -/
theorem ended (h : i.Lined p absent) {o : ReqOutcome} {rep : Option Reply}
    (reply : rep = none ∨ rep = i.reply) :
    PortIf.Lined p absent { i with request := none, reply := rep, outcome := o } := by
  have same (r : Reply) (some : rep = some r) : i.reply = Option.some r := by
    rcases reply with e | e
    · rw [e] at some; cases some
    · rw [← e]; exact some
  have gone (none : i.reply = none) : rep = Option.none := by
    rcases reply with e | e
    · exact e
    · rw [e]; exact none
  refine ⟨h.out, fun wait => ?_, fun q some => (by cases some), fun q some => (by cases some),
    fun r some => ⟨rfl, (h.serves r (same r some)).2⟩, fun away => ⟨rfl, gone (h.quiet away).2⟩⟩
  obtain ⟨low, -, reply, car⟩ := h.awaits wait
  exact ⟨low, rfl, gone reply, car⟩

/-- A request of the port begins or goes on. -/
theorem asked (h : i.Lined p false) (ready : i.awaitSelect = false) (reply : i.reply = none) {q : InProgress}
    (own : q.req ∈ requestsOf p) (more : q.args.length < q.req.argUnits q.args) :
    PortIf.Lined p false { i with request := some q } := by
  refine ⟨h.out, fun wait => ?_, fun _ held => ?_, fun _ held => ?_, fun r held => ?_,
    fun away => by cases away⟩
  · exact absurd (ready.symm.trans wait) (by decide)
  · cases held; exact own
  · cases held; exact more
  · exact absurd (reply.symm.trans held) fun k => by cases k

/-- A reply is served. -/
theorem replies (h : i.Lined p false) (ready : i.awaitSelect = false) (request : i.request = none)
    {b : BitVec 16} {rep : Reply} (next : rep.next < rep.units.length) :
    PortIf.Lined p false { i with notices := b, reply := some rep } := by
  refine ⟨h.out, fun wait => absurd (ready.symm.trans wait) (by decide), h.own, h.unfinished,
    fun r some => ?_, fun away => by cases away⟩
  cases some
  exact ⟨request, next⟩

/-- One more bit is sampled, on a port that takes it. -/
theorem sample (h : i.Lined p absent) (b : Bool) (shift : List Bool) :
    PortIf.Lined p absent { i.sample b with shiftIn := shift } :=
  ⟨⟨_, rfl⟩, h.awaits, h.own, h.unfinished, h.serves, h.quiet⟩

theorem carried (h : i.Lined p absent) (data : Byte) : (i.carried data).Lined p absent :=
  ⟨⟨9, rfl⟩, fun wait => ⟨rfl, (h.awaits wait).2⟩, h.own, h.unfinished, h.serves, h.quiet⟩

/-- SELn falls, with no bit in. -/
theorem begun (h : i.Lined p absent) (shift : List Bool) :
    PortIf.Lined p absent { i with selLow := true, shiftIn := shift } :=
  ⟨h.out, fun wait => ⟨rfl, (h.awaits wait).2⟩, h.own, h.unfinished, h.serves, h.quiet⟩

/-- SELn rises. -/
theorem risen (h : i.Lined p absent) :
    PortIf.Lined p absent { i with selLow := false, awaitSelect := false, shiftIn := [] } :=
  ⟨h.out, fun wait => (by cases wait), h.own, h.unfinished, h.serves, h.quiet⟩

theorem silenced (p : Port) (absent : Bool) (i : PortIf) : i.silenced.Lined p absent :=
  ⟨⟨0, rfl⟩, fun wait => (by cases wait), fun q some => (by cases some), fun q some => (by cases some),
    fun r some => (by cases some), fun _ => ⟨rfl, rfl⟩⟩

theorem awaiting (h : i.Lined (.car c) true) : i.awaiting.Lined (.car c) false := by
  obtain ⟨request, reply⟩ := h.quiet rfl
  exact ⟨h.out, fun wait => ⟨wait, request, reply, ⟨c, rfl⟩, rfl⟩, h.own, h.unfinished, h.serves,
    fun away => by cases away⟩

theorem afterReset (p : Port) (absent : Bool) (i : PortIf) (b : BitVec 16) :
    PortIf.Lined p absent { i.afterReset with notices := b } :=
  ⟨⟨0, rfl⟩, fun wait => (by cases wait), fun q some => (by cases some), fun q some => (by cases some),
    fun r some => (by cases some), fun _ => ⟨rfl, rfl⟩⟩

end PortIf.Lined

/-! ## Every port -/

/-- The lines of every port are in order, and none is inside a unit but `o`, where one is named. -/
structure State.LinesSound (o : Option Port) (s : State) : Prop where
  lined : ∀ p, (s.port p).Lined p (s.absentPort p)
  between : ∀ p, o ≠ some p → (s.port p).shiftIn = []

theorem State.absentPort_of_store (store : t.store = s.store) (p : Port) :
    t.absentPort p = s.absentPort p := by
  cases p with
  | car c => rw [State.absentPort, State.configured_of_store store]; rfl
  | supply => rfl
  | panel => rfl

namespace State.LinesSound

theorem of_framing (h : s.LinesSound o) (absent : ∀ p, t.absentPort p = s.absentPort p)
    (framing : ∀ p, (t.port p).framing = (s.port p).framing) : t.LinesSound o where
  lined p := by rw [absent]; exact (h.lined p).of_framing (framing p)
  between p other := (congrArg PortIf.shiftIn (framing p)).trans (h.between p other)

theorem told (h : s.LinesSound o) (k : Told s t) : t.LinesSound o :=
  h.of_framing (State.absentPort_of_store k.store) k.framing

theorem updPort (h : s.LinesSound o) {f : PortIf → PortIf}
    (lined : (f (s.port p)).Lined p (s.absentPort p))
    (between : o = some p ∨ (f (s.port p)).shiftIn = []) : (s.updPort p f).LinesSound o where
  lined q := by
    rw [State.updPort_port, show (s.updPort p f).absentPort q = s.absentPort q from
      State.absentPort_of_store rfl q]
    split
    · rename_i same; rw [same]; exact lined
    · exact h.lined q
  between q other := by
    rw [State.updPort_port]
    split
    · rename_i same
      subst same
      exact between.resolve_left other
    · exact h.between q other

/-- A port's change that leaves its bit count. -/
theorem exchange (h : s.LinesSound o) {f : PortIf → PortIf}
    (lined : (f (s.port p)).Lined p (s.absentPort p)) (shift : ∀ i, (f i).shiftIn = i.shiftIn) :
    (s.updPort p f).LinesSound o := by
  refine h.updPort lined ?_
  rw [shift]
  by_cases other : o = some p
  · exact .inl other
  · exact .inr (h.between p other)

end State.LinesSound

/-! ## The store -/

theorem State.StoreSound.of_store (h : s.StoreSound) (same : t.store = s.store) : t.StoreSound := by
  constructor <;> rw [same]
  · exact h.defaults
  · exact h.valid
  · exact h.forced
  · exact h.programming
  · exact h.awaiting

theorem NvStore.formed_usable {i : Image} {carsel : BitVec 2}
    (valid : validImage i (strappedCount carsel) = true) : (NvStore.formed i).usable carsel = true := by
  rw [NvStore.usable, NvStore.formed_matching, Bool.true_and]; exact valid

theorem NvStore.valid_of_usable {n : NvStore} {carsel : BitVec 2} (h : n.usable carsel = true) :
    validImage n.image (strappedCount carsel) = true := (Bool.and_eq_true_iff.1 h).2

theorem State.StoreSound.atRelease {n : NvStore} {carsel : BitVec 2} {single : Bool}
    (store : s.store = .atRelease n carsel single) : s.StoreSound := by
  constructor <;> rw [store]
  · intro default
    by_cases use : (n.usable carsel && !single) = true
    · simp [Store.atRelease, use] at default
    · simp [Store.atRelease, use]
  · intro valid
    by_cases use : (n.usable carsel && !single) = true
    · simp only [Store.atRelease, if_pos use]
      exact NvStore.valid_of_usable (Bool.and_eq_true_iff.1 use).1
    · simp [Store.atRelease, use] at valid
  · intro forced
    have forced : single = true := forced
    simp [Store.atRelease, forced]
  · exact fun programming => by cases programming
  · exact fun awaiting => by cases awaiting

/-- What the acts of requests and timers keep of the lines and the store. -/
structure State.LinkedSound (o : Option Port) (s : State) : Prop where
  lines : s.LinesSound o
  store : s.StoreSound

namespace State.LinkedSound

theorem told (h : s.LinkedSound o) (k : Told s t) : t.LinkedSound o :=
  ⟨h.lines.told k, h.store.of_store k.store⟩

theorem exchange (h : s.LinkedSound o) {f : PortIf → PortIf}
    (lined : (f (s.port p)).Lined p (s.absentPort p)) (shift : ∀ i, (f i).shiftIn = i.shiftIn) :
    (s.updPort p f).LinkedSound o := ⟨h.lines.exchange lined shift, h.store.of_store rfl⟩

/-! ## A new active table -/

theorem activate_lines (h : s.LinesSound o) (i : Image) : (activate i s).LinesSound o := by
  have carLine (c : CarIx) : ((activate i s).port (.car c)).Lined (.car c)
      ((activate i s).absentPort (.car c)) ∧
      (o ≠ some (.car c) → ((activate i s).port (.car c)).shiftIn = []) := by
    have lined := h.lined (.car c)
    have between := h.between (.car c)
    rw [State.absentPort] at lined ⊢
    rw [activate_configured, activate_carPort]
    cases was : s.configured c <;> cases is : configures i c <;> rw [was] at lined
    · exact ⟨lined, between⟩
    · exact ⟨lined.awaiting, between⟩
    · exact ⟨.silenced _ _ _, fun _ => rfl⟩
    · exact ⟨lined, between⟩
  constructor
  · intro p
    cases p with
    | car c => exact (carLine c).1
    | supply => rw [activate_port i s .supply fun c => by simp]; exact h.lined .supply
    | panel => rw [activate_port i s .panel fun c => by simp]; exact h.lined .panel
  · intro p
    cases p with
    | car c => exact (carLine c).2
    | supply => rw [activate_port i s .supply fun c => by simp]; exact h.between .supply
    | panel => rw [activate_port i s .panel fun c => by simp]; exact h.between .panel

theorem activate (h : s.LinkedSound o) {i : Image} (valid : validImage i (strappedCount s.store.carsel) = true)
    (idle : s.store.state = .idle) (unforced : s.store.single = false) : (activate i s).LinkedSound o := by
  obtain ⟨ports, made⟩ := activate_rest i s
  have store : (Machine.activate i s).store = { s.store with active := i, site := .valid } := by
    rw [made]; rfl
  refine ⟨activate_lines h.lines i, ?_⟩
  constructor <;> rw [store]
  · exact fun k => by cases k
  · exact fun _ => valid
  · exact fun k => absurd (unforced.symm.trans k) (by decide)
  · exact fun k => absurd (idle.symm.trans k) (by decide)
  · exact fun k => absurd (idle.symm.trans k) (by decide)

/-- A store write ends with a usable image (R156). -/
theorem endStoreWrite (h : s.LinkedSound o) (usable : s.store.nv.usable s.store.carsel = true) :
    (endStoreWrite s).LinkedSound o := by
  have ended : State.LinkedSound o { s with store := { s.store with
      state := .idle, writing := none, programTimer := none } } := by
    refine ⟨h.lines.of_framing (fun p => ?_) fun p => rfl, ?_⟩
    · cases p <;> rfl
    · exact ⟨h.store.defaults, h.store.valid, h.store.forced, fun k => (by cases k), fun k => by cases k⟩
  have ended := ended.told ((Told.refl _).noticePanel .storeDone)
  unfold Machine.endStoreWrite
  dsimp only
  split
  · exact ended
  · rename_i single
    exact ended.activate (NvStore.valid_of_usable usable) rfl (by simpa using single)

theorem activateOnMains (h : s.LinkedSound o) : (activateOnMains s).LinkedSound o := by
  unfold Machine.activateOnMains
  split
  · rename_i due; exact h.endStoreWrite (h.store.awaiting due.2)
  · exact h

theorem programmingEnds (h : s.LinkedSound o) : (programmingEnds s).LinkedSound o := by
  unfold Machine.programmingEnds
  split
  · rename_i i programs writes
    have valid := h.store.programming programs
    rw [writes] at valid
    have usable : (NvStore.formed i).usable s.store.carsel = true := NvStore.formed_usable valid
    have stored : State.LinkedSound o { s with store := { s.store with
        nv := .formed i, state := .awaitingActivation, writing := none, programTimer := none } } := by
      refine ⟨h.lines.of_framing (fun p => ?_) fun p => rfl, ?_⟩
      · cases p <;> rfl
      · exact ⟨h.store.defaults, h.store.valid, h.store.forced, fun k => (by cases k), fun _ => usable⟩
    dsimp only
    split
    · exact stored.endStoreWrite usable
    · exact stored
  · exact h

theorem takeSiteWrite (h : s.LinkedSound o) (i : Image) : (takeSiteWrite i s).1.LinkedSound o := by
  unfold Machine.takeSiteWrite
  split
  · exact h
  · split
    · exact h
    · split
      · exact h
      · rename_i valid
        refine ⟨h.lines.of_framing (fun p => ?_) fun p => rfl, ?_⟩
        · cases p <;> rfl
        · refine ⟨h.store.defaults, h.store.valid, h.store.forced, fun _ => ?_, fun k => by cases k⟩
          simpa using valid

theorem takeSupply (h : s.LinkedSound o) (b : Byte) : (takeSupply b s).1.LinkedSound o := by
  unfold Machine.takeSupply
  split
  · exact h
  · exact (h.told (.reportSupply _ s)).activateOnMains

/-! ## Requests -/

theorem requestAct (h : s.LinkedSound o) (p : Port) (r : Request) (args : List Byte) :
    (requestAct p r args s).1.LinkedSound o := by
  have closed {k : Cause} {act : State → State × ReqOutcome} (acted : (act s).1.LinkedSound o) :
      (closing k act s).1.LinkedSound o := acted.told ((Told.refl _).closeEvent k s)
  have accepted {f : State → State} (told : Told s (f s)) : (accepting f s).1.LinkedSound o := h.told told
  unfold Machine.requestAct
  split
  · rename_i d; exact closed (h.told (.takeTrip d _ _ s))
  · rename_i d; exact closed (accepted (f := withdrawTrip d) (.of_only (withdrawTrip_only (.refl s) d)))
  · rename_i d; exact closed (accepted (f := atSpeed d) (.of_only (atSpeed_only (.refl s) d)))
  · rename_i d; exact accepted (f := startFailed d) (.startFailed d s)
  · rename_i d; exact accepted (f := carStopped d) (.carStopped d s)
  · rename_i d; exact closed (accepted (f := takeState d (argAt args 0)) (.takeState d _ s))
  · exact closed (h.takeSupply _)
  · exact closed (accepted (f := takeRecovered) (.takeRecovered s))
  · exact closed (h.told (.takeReserve _ _ s))
  · exact closed (h.told (.takeClaim _ s))
  · exact closed (h.told (.releaseClaim s))
  · exact closed (accepted (f := takeSelect args) (.takeSelect args s))
  · exact closed (h.told (.takeInclude _ _ s))
  · exact closed (h.told (.takeRelease _ s))
  · exact h.takeSiteWrite _
  · exact h

theorem setRequest_none (h : s.LinkedSound o) : (setRequest p none s).LinkedSound o :=
  h.exchange (f := fun i => { i with request := none })
    ((h.lines.lined p).ended (o := (s.port p).outcome) (.inr rfl)) fun _ => rfl

theorem setOutcome (h : s.LinkedSound o) (r : ReqOutcome) : (setOutcome p r s).LinkedSound o := by
  have lined := h.lines.lined p
  exact h.exchange (f := fun i => { i with outcome := r })
    ⟨lined.out, lined.awaits, lined.own, lined.unfinished, lined.serves, lined.quiet⟩ fun _ => rfl

theorem complete (h : s.LinkedSound o) {act : State → State × ReqOutcome}
    (acts : ∀ u : State, u.LinkedSound o → (act u).1.LinkedSound o) : (complete p act s).LinkedSound o :=
  (acts _ (h.setRequest_none.told (.linkUp p _))).setOutcome _

theorem absentPort_of_hears (hears : s.hears p) : s.absentPort p = false := by
  cases p with
  | car c => rw [State.absentPort, hears c rfl]; rfl
  | supply => rfl
  | panel => rfl

/-- A request with units still to come is set on a port that takes units. -/
theorem setRequest_some (h : s.LinkedSound o) (hears : s.hears p) (ready : (s.port p).awaitSelect = false)
    (reply : (s.port p).reply = none) {q : InProgress} (own : q.req ∈ requestsOf p)
    (more : q.args.length < q.req.argUnits q.args) : (setRequest p (some q) s).LinkedSound o := by
  have lined := h.lines.lined p
  rw [absentPort_of_hears hears] at lined
  refine h.exchange (f := fun i => { i with request := some q }) ?_ fun _ => rfl
  rw [absentPort_of_hears hears]
  exact lined.asked ready reply own more

end State.LinkedSound

/-- A read of its own port has a reply (R143, R148). -/
theorem replyUnits_pos {r : Request} (own : r ∈ requestsOf p) (read : r.isRead = true) (s : State) :
    0 < (replyUnits p r s).length := by
  cases r with
  | readNotices => cases p <;> exact Nat.zero_lt_succ _
  | readIdent => cases p <;> exact Nat.zero_lt_succ _
  | readCar =>
    cases p with
    | car c => exact Nat.zero_lt_succ _
    | supply => exact absurd own (by decide)
    | panel => exact absurd own (by decide)
  | readSupply => cases p <;> exact Nat.zero_lt_succ _
  | siteRead => cases p <;> simp [replyUnits, siteReply]
  | readAccount => cases p <;> exact Nat.zero_lt_succ _
  | readPlan => cases p <;> exact Nat.zero_lt_succ _
  | _ => cases read

/-- The port takes units: it is no absent car's, and waits for no select. -/
structure State.Takes (s : State) (p : Port) : Prop where
  hears : s.hears p
  ready : (s.port p).awaitSelect = false

theorem takes_of_not_ignores (h : ignores s p = false) : s.Takes p := by
  refine ⟨hears_of_takes h, ?_⟩
  simp only [ignores, Bool.or_eq_false_iff] at h
  exact h.1.2

theorem State.Takes.told (h : s.Takes p) (k : Told s t) : t.Takes p :=
  ⟨h.hears.of_store k.store, (congrArg PortIf.awaitSelect (k.framing p)).trans h.ready⟩

theorem State.Takes.updPort (h : s.Takes p) {f : PortIf → PortIf} (same : ∀ i, (f i).awaitSelect = i.awaitSelect) :
    (s.updPort p f).Takes p := by
  refine ⟨h.hears.of_store rfl, ?_⟩
  rw [State.updPort_port_same, same]; exact h.ready

theorem mem_requestsOf_of_code {code : Byte} {r : Request} (named : Request.ofCode p code = some r) :
    r ∈ requestsOf p := List.mem_of_find?_eq_some named

namespace State.LinkedSound

/-! ## Units -/

/-- A read's reply begins on a port with no request in progress. -/
theorem startRead (h : s.LinkedSound o) (takes : s.Takes p) (request : (s.port p).request = none)
    {r : Request} (own : r ∈ requestsOf p) (read : r.isRead = true) : (startRead p r s).LinkedSound o := by
  have up := Told.linkUp p s
  have heard := h.told up
  have takes := takes.told up
  have lined := heard.lines.lined p
  have request : ((linkUp p s).port p).request = none :=
    (congrArg PortIf.request (up.framing p)).trans request
  rw [absentPort_of_hears takes.hears] at lined
  refine heard.exchange (f := fun i => { i with reply := _ }) ?_ fun _ => rfl
  rw [absentPort_of_hears takes.hears]
  exact lined.replies takes.ready request (replyUnits_pos own read _)

theorem opcodeUnit (h : s.LinkedSound o) (takes : s.Takes p) (code : Byte) :
    (opcodeUnit p code s).LinkedSound o := by
  have ended : (endPrevious p s).LinkedSound o :=
    h.exchange (f := fun i => { i with
      request := none, reply := none, outcome := if i.request.isSome then .abandoned else i.outcome })
      ((h.lines.lined p).ended (.inl rfl)) fun _ => rfl
  have takes : (endPrevious p s).Takes p := takes.updPort fun _ => rfl
  have request : ((endPrevious p s).port p).request = none := by
    rw [endPrevious, State.updPort_port_same]
  have reply : ((endPrevious p s).port p).reply = none := by
    rw [endPrevious, State.updPort_port_same]
  unfold Machine.opcodeUnit
  split
  · rename_i r named
    have own := mem_requestsOf_of_code named
    unfold startRequest
    split
    · rename_i read; exact ended.startRead takes request own read
    · split
      · exact ended.complete fun _ hu => hu
      · split
        · exact ended.complete fun _ hu => hu.requestAct p r []
        · rename_i more
          exact ended.setRequest_some takes.hears takes.ready reply own (Nat.pos_of_ne_zero more)
  · exact ended.complete fun u hu => hu.told (.noticeProtocol p u)

/-- The request in progress has taken one more unit. -/
theorem handUnit (h : s.LinkedSound o) (takes : s.Takes p) (reply : (s.port p).reply = none)
    {q : InProgress} (own : q.req ∈ requestsOf p) : (handUnit p q s).LinkedSound o := by
  unfold Machine.handUnit
  split
  · rename_i c profile
    have eight : q.req.argUnits q.args = 8 := by rw [profile]; rfl
    have latched (u : State) : Told u (u.updCar c fun r =>
        { r with profile := latchProfile q.args r.profile }) := (Told.refl u).updCar c _
    unfold profileUnit
    split
    · exact h.setRequest_some takes.hears takes.ready reply own (by omega)
    · split
      · exact h.complete fun _ hu => hu
      · dsimp only
        split
        · exact (h.told (latched s)).setRequest_some (takes.told (latched s)).hears takes.ready reply own (by omega)
        · exact h.complete fun u hu => hu.told (latched u)
  · rename_i p _ _ offer
    have six : q.req.argUnits q.args = 6 := by rw [offer]; rfl
    unfold offerUnit
    split
    · cases p with
      | supply =>
        have latched := Told.offerStep q.args s
        exact (h.told latched).setRequest_some (takes.told latched).hears (takes.told latched).ready
          ((congrArg PortIf.reply (latched.framing .supply)).trans reply) own (by omega)
      | car c => rw [offer] at own; exact absurd own (by simp [requestsOf, commonRequests, carRequests])
      | panel => rw [offer] at own; exact absurd own (by decide)
    · exact h.complete fun u hu => hu.told (.offerStep q.args u)
  · split
    · rename_i more; exact h.setRequest_some takes.hears takes.ready reply own more
    · exact h.complete fun _ hu => hu.requestAct _ _ _

/-- A reply unit goes out whole (R136, R143, R145). -/
theorem serveUnit (h : s.LinkedSound o) (takes : s.Takes p) {rep : Reply} (serving : (s.port p).reply = some rep) :
    (s.updPort p (serveUnit rep)).LinkedSound o := by
  have lined := h.lines.lined p
  obtain ⟨request, next⟩ := lined.serves rep serving
  rw [absentPort_of_hears takes.hears] at lined
  refine h.exchange ?_ fun _ => rfl
  rw [absentPort_of_hears takes.hears]
  refine lined.replies takes.ready request ?_
  dsimp only
  split
  · assumption
  · omega

theorem argUnit (h : s.LinkedSound o) (takes : s.Takes p) (data : Byte) : (argUnit p data s).LinkedSound o := by
  have lined := h.lines.lined p
  unfold Machine.argUnit
  split
  · rename_i q held
    refine h.handUnit takes ?_ (lined.own q held)
    cases reply : (s.port p).reply with
    | none => rfl
    | some rep => exact absurd ((lined.serves rep reply).1.symm.trans held) fun k => by cases k
  · split
    · rename_i rep serving; exact h.serveUnit takes serving
    · exact h

theorem clockBit (h : s.LinkedSound (some p)) (b : Bool) : (clockBit p s b).LinkedSound (some p) := by
  unfold Machine.clockBit
  split
  · exact h
  · rename_i open'
    have takes := takes_of_not_ignores (by simpa using open')
    extract_lets i t
    have shifted : t.LinkedSound (some p) :=
      ⟨h.lines.updPort ((h.lines.lined p).sample b _) (.inl rfl), h.store.of_store rfl⟩
    have takes : t.Takes p := ⟨takes.hears.of_store rfl, by
      rw [State.updPort_port_same]; exact takes.ready⟩
    split
    · exact shifted
    · split
      · exact shifted.argUnit takes _
      · exact shifted.opcodeUnit takes _

theorem beginUnit (h : s.LinkedSound none) : (beginUnit p s).LinkedSound none :=
  ⟨h.lines.updPort ((h.lines.lined p).begun []) (.inr rfl), h.store.of_store rfl⟩

theorem exempt (h : s.LinkedSound none) (o : Option Port) : s.LinkedSound o :=
  ⟨⟨h.lines.lined, fun p _ => h.lines.between p (by simp)⟩, h.store⟩

theorem shiftUnit (h : s.LinkedSound none) (kind : Bool) (data : Byte) :
    (shiftUnit p kind data s).LinkedSound none := by
  cases open' : ignores s p
  · have takes := takes_of_not_ignores open'
    rw [shiftUnit_eq open']
    have carried : (s.updPort p fun i => i.carried (i.dataFor kind)).LinkedSound none :=
      ⟨h.lines.updPort ((h.lines.lined p).carried _) (.inr rfl), h.store.of_store rfl⟩
    have takes : (s.updPort p fun i => i.carried (i.dataFor kind)).Takes p := takes.updPort fun _ => rfl
    cases kind
    · exact carried.opcodeUnit takes data
    · exact carried.argUnit takes data
  · rw [shiftUnit_ignored open']; exact h.beginUnit

theorem cutUnit (h : s.LinkedSound none) (bits : List Bool) : (cutUnit p bits s).LinkedSound none := by
  have clocked : (bits.foldl (Machine.clockBit p) (Machine.beginUnit p s)).LinkedSound (some p) :=
    List.foldlRecOn bits _ (h.beginUnit.exempt _) fun _ ht b _ => ht.clockBit b
  have lines := clocked.lines
  refine ⟨⟨fun q => ?_, fun q _ => ?_⟩, clocked.store.of_store rfl⟩
  · exact (lines.updPort (f := fun i => { i with selLow := false, awaitSelect := false, shiftIn := [] })
      (lines.lined p).risen (.inl rfl)).lined q
  · unfold Machine.cutUnit riseSel
    rw [State.updPort_port]
    split
    · rfl
    · rename_i other; exact lines.between q (by simpa using Ne.symm other)

theorem sent (h : s.LinkedSound none) {i : Instr} (sender : senderOf i = some p) (run : exec i s = .next t) :
    t.LinkedSound none := by
  rcases exec_units sender run with ⟨units, rfl⟩ | ⟨l, rfl⟩
  · exact List.foldlRecOn units _ h fun _ ht u _ => ht.shiftUnit u.1 u.2
  · exact h.cutUnit l

/-! ## Commands that no port sends -/

theorem atRelease {n : NvStore} {carsel : BitVec 2} {single : Bool} {ports : Vector PortIf 14} {b : Bool}
    (store : s.store = .atRelease n carsel single) (made : s.ports = portsAtRelease ports b) :
    s.LinkedSound none := by
  have line (p : Port) : ∃ i b, s.port p = { PortIf.afterReset i with notices := b } := by
    rw [State.port, made]
    simp only [portsAtRelease, Vector.getElem_ofFn]
    split
    · exact ⟨_, _, rfl⟩
    · exact ⟨_, 0, rfl⟩
  refine ⟨⟨fun p => ?_, fun p _ => ?_⟩, .atRelease store⟩
  · obtain ⟨i, b, e⟩ := line p
    rw [e]; exact .afterReset p _ i b
  · obtain ⟨i, b, e⟩ := line p
    rw [e]; rfl

theorem guarded {P : Prop} {inst : Decidable P} {u : State} (h : s.LinkedSound o)
    (acts : P → u.LinkedSound o) (run : Host.Outcome.next (if P then u else s) = (.next t : Answer)) :
    t.LinkedSound o := by
  cases run
  split
  · rename_i due; exact acts due
  · exact h

theorem unsent (h : s.LinkedSound none) {i : Instr} (own : senderOf i = none) (run : exec i s = .next t) :
    t.LinkedSound none := by
  have told {u : State} (k : Told s u) : u.LinkedSound none := h.told k
  have closed {u : State} (k : Told s u) : (closeEvent {} s u).LinkedSound none := h.told (k.closeEvent {} s)
  cases i with
  | carLinkTimeout c => exact h.guarded (fun _ => closed (.loseCarLink c s)) run
  | supplyLinkTimeout =>
    refine h.guarded (fun _ => told (Told.noticePanel ?_ .supplySilent)) run
    exact .parts rfl rfl
  | panelLinkTimeout =>
    refine h.guarded (fun _ => told (Told.noticeSupply ?_ .panelSilent)) run
    exact .parts rfl rfl
  | settleExpiry => exact h.guarded (fun _ => closed (.settleExpires s)) run
  | returnTimerExpiry => exact h.guarded (fun _ => told (.forceClearance s)) run
  | recallSupervisionExpiry c => exact h.guarded (fun _ => closed (.recallExpires c s)) run
  | startWindowExpiry => exact h.guarded (fun _ => told (.startWindowExpires s)) run
  | panelWindowExpiry =>
    exact h.guarded (fun _ => told ((Told.endPanelHold s).noticePanel .startOverdue)) run
  | recoveryExpiry =>
    refine h.guarded (fun _ => closed ?_) run
    exact .parts rfl rfl
  | fairnessExpiry =>
    refine h.guarded (fun _ => closed ?_) run
    exact .parts rfl rfl
  | headAgeExpiry =>
    refine h.guarded (fun _ => closed ?_) run
    exact .parts rfl rfl
  | shedSupervisionExpiry c =>
    exact h.guarded (fun _ => told ((Told.shedExpires c s).closeEvent { pass := true } s)) run
  | storeProgrammingEnd =>
    exact h.guarded (fun _ => h.programmingEnds.told ((Told.refl _).closeEvent {} s)) run
  | reset => cases run; exact .atRelease (ports := s.ports) (b := false) rfl rfl
  | resetRelease carsel single =>
    exact h.guarded (fun _ => .atRelease (ports := s.ports) (b := !s.store.nv.usable carsel) rfl rfl) run
  | _ => cases own

theorem of_sound (h : s.Sound) : s.LinkedSound none := by
  have ports := h.ports
  refine ⟨⟨fun p => ⟨ports.out p, fun wait => ?_, ports.own p, ports.unfinished p, ports.serves p,
    fun away => ?_⟩, fun p _ => ports.between p⟩, h.store⟩
  · obtain ⟨low, request, reply, c, rfl, on⟩ := ports.awaits p wait
    exact ⟨low, request, reply, ⟨c, rfl⟩, by rw [State.absentPort, on]; rfl⟩
  · cases p with
    | car c =>
      obtain ⟨-, request, reply, -⟩ := h.absent c (by simpa [State.absentPort] using away)
      exact ⟨request, reply⟩
    | supply => cases away
    | panel => cases away

theorem sound (h : s.LinkedSound none) : s.PortsSound where
  between p := h.lines.between p (by simp)
  out p := (h.lines.lined p).out
  awaits p wait := by
    obtain ⟨low, request, reply, ⟨c, rfl⟩, on⟩ := (h.lines.lined p).awaits wait
    exact ⟨low, request, reply, c, rfl, by simpa [State.absentPort] using on⟩
  own p := (h.lines.lined p).own
  unfinished p := (h.lines.lined p).unfinished
  serves p := (h.lines.lined p).serves

end State.LinkedSound

/-- Settles O51: the lines and the store keep what they owe one another through every unit and every act, and the
records' agreement keeps the absent cars' records. -/
theorem storeAndAbsentKept : Obligations.StoreAndAbsentKept := by
  intro s t sound run
  have agree := sound.recordsAgree_step run
  have linked := State.LinkedSound.of_sound sound
  have linked : t.LinkedSound none := by
    refine step_commands (P := State.LinkedSound none) run (linked.told (.parts rfl rfl))
      fun i pending freeIx run => ?_
    have waiting : State.LinkedSound none { s with pending := pending, freeIx := freeIx } :=
      linked.told (.parts rfl rfl)
    cases sender : senderOf i with
    | none => exact waiting.unsent sender run
    | some p => exact waiting.sent sender run
  refine ⟨linked.store, fun c off => ?_, linked.sound⟩
  obtain ⟨record, notices⟩ := agree.absent c off
  obtain ⟨request, reply⟩ := (linked.lines.lined (.car c)).quiet (by rw [State.absentPort, off]; rfl)
  exact ⟨record, request, reply, notices⟩

end Sys2Proof.Machine
end

section
/-!
PROOFS. What an event's end leaves of one car: of a car out of the queue, the recall list and the roles on which the
moves act, of one taken into the plan, and, where nothing that the end reads has moved, of every car (R35).
-/

namespace Sys2Proof.Machine

variable {s t x s0 : State} {c d : CarIx}

/-! ## An event whose end has nothing to do -/

/-- From `s` to `t` nothing moved that an event's end reads. -/
structure State.Unread (s t : State) : Prop where
  bills : SameAccount s t
  account : t.account = s.account
  gate : t.gate = s.gate
  queue : t.queue = s.queue
  plan : t.plan = s.plan
  link : t.supplyLink = s.supplyLink
  shed : t.shed = s.shed
  role : ∀ c, t.role c = s.role c ∧ (t.car c).preLoss = (s.car c).preLoss
  trip : ∀ c, t.trip c = s.trip c

namespace State.Unread

theorem refl (s : State) : s.Unread s :=
  ⟨.refl s, rfl, rfl, rfl, rfl, rfl, rfl, fun _ => ⟨rfl, rfl⟩, fun _ => rfl⟩

theorem trans {u : State} (h : s.Unread t) (k : t.Unread u) : s.Unread u where
  bills := h.bills.trans k.bills
  account := k.account.trans h.account
  gate := k.gate.trans h.gate
  queue := k.queue.trans h.queue
  plan := k.plan.trans h.plan
  link := k.link.trans h.link
  shed := k.shed.trans h.shed
  role c := ⟨(k.role c).1.trans (h.role c).1, (k.role c).2.trans (h.role c).2⟩
  trip c := (k.trip c).trans (h.trip c)

theorem updCar (s : State) (c : CarIx) {f : CarRecord → CarRecord}
    (keeps : (f (s.car c)).bill = (s.car c).bill ∧ (f (s.car c)).role = (s.car c).role ∧
      (f (s.car c)).preLoss = (s.car c).preLoss ∧ (f (s.car c)).trip = (s.car c).trip) :
    s.Unread (s.updCar c f) := by
  obtain ⟨bill, role, preLoss, trip⟩ := keeps
  refine ⟨.updCar bill, rfl, rfl, rfl, rfl, rfl, rfl, fun d => ?_, fun d => ?_⟩
  · rw [State.role, State.role, State.updCar_car]
    split
    · rename_i same; rw [same]; exact ⟨role, preLoss⟩
    · exact ⟨rfl, rfl⟩
  · rw [State.trip, State.trip, State.updCar_car]
    split
    · rename_i same; rw [same]; exact trip
    · rfl

theorem updPort (s : State) (p : Port) (f : PortIf → PortIf) : s.Unread (s.updPort p f) :=
  ⟨.parts rfl rfl rfl rfl rfl, rfl, rfl, rfl, rfl, rfl, rfl, fun _ => ⟨rfl, rfl⟩, fun _ => rfl⟩

theorem noticeCar (s : State) (c : CarIx) (k : CarNotice) : s.Unread (s.noticeCar c k) := by
  rcases s.noticeCar_eq c k with same | same <;> rw [same]
  · exact .refl s
  · exact .updPort s _ _

theorem settled (h : s.Unread t) (settled : s.Settled) : t.Settled :=
  settled.of_same h.bills (State.control_iff.2 ⟨h.account, h.shed⟩)

theorem inRecall (h : s.Unread t) : t.inRecall = s.inRecall := by
  funext c
  simp only [State.inRecall, (h.role c).1, (h.role c).2]

theorem inService (h : s.Unread t) : t.inService = s.inService := by
  funext c
  simp only [State.inService, (h.role c).1, (h.role c).2]

theorem listed (h : s.Unread t) : listed t = listed s := by
  funext c
  simp only [Machine.listed, h.plan]

theorem advancePlan (h : s.Unread t) : advancePlan s t = t := by
  have noCalls : callsDue s t = false := by
    simp [callsDue, someLeft, someJoined, supplyCameUp, h.listed, h.inRecall, h.inService, h.plan, h.link]
    intro phase
    rw [phase]
    decide
  have noEnd : endCheckDue s t = false := by
    simp [endCheckDue, someLeft, h.listed, h.inRecall, h.plan]
  simp [Machine.advancePlan, noCalls, noEnd]

theorem grantIfDue (h : s.Unread t) : grantIfDue s t = t := by
  unfold Machine.grantIfDue
  split
  · rename_i due
    have shut : t.gate.state ≠ .opened := by
      simpa [grantDue, supplyCameUp, ← Option.not_isSome, h.gate, h.queue, h.plan, h.link, h.account, h.trip,
        h.bills.figures] using due
    rw [grantRule, if_neg shut]
  · rfl

/-- An event that moves nothing of what its end reads, closed in a settled state, has no consequence. -/
theorem closeEvent (h : s.Unread t) (settled : s.Settled) : closeEvent {} s t = t := by
  have noRecheck : recheckDue s t = false := by
    simp [recheckDue, stepLowered, h.account, h.bills.rs]
  have noJoin : someJoined (fun y c => y.role c == .parked) s t = false := by
    simp [someJoined, (h.role _).1]
  have noSelection : selectionDue {} s t = false := by
    cases phase : s.account.overcommit <;>
      simp [selectionDue, someLeft, noJoin, h.inService, h.account, h.plan, h.bills.rs, phase]
  have noPass : shedIfDue {} s t = t := by simp [shedIfDue, h.bills.figures, h.account]
  rw [closeEvent_eq, evaluated, h.advancePlan, (h.settled settled).evaluate_eq_self, recheckIfDue,
    noRecheck, if_neg (by decide), noPass, selectAndGrant, noSelection, if_neg (by decide), h.grantIfDue]

end State.Unread

/-- An event that moves no figure of a settled account ends in its calls, its selections and its grant: no entry
is re-checked and no pass of the controller is made. -/
theorem closeEvent_calm (settled : s0.Settled) (bills : SameAccount s0 x) (control : x.control = s0.control)
    (sound : x.EntriesSound) : closeEvent {} s0 x = selectAndGrant {} s0 (advancePlan s0 x) := by
  have called : SameAccount x (advancePlan s0 x) := advancePlan_sameAccount s0 sound
  have held : (advancePlan s0 x).control = s0.control := (advancePlan_kept s0 x).control.trans control
  have same := bills.trans called
  have account := (State.control_iff.1 held).1
  have noRecheck : recheckDue s0 (advancePlan s0 x) = false := by
    simp [recheckDue, stepLowered, account, same.rs]
  have noPass : shedIfDue {} s0 (advancePlan s0 x) = advancePlan s0 x := by
    simp [shedIfDue, same.figures, account]
  rw [closeEvent_eq, evaluated, (settled.of_same same held).evaluate_eq_self, recheckIfDue, noRecheck,
    if_neg (by decide), noPass]

/-! ## The lists through the moves -/

theorem Move.list_sublist (m : Move s t) : t.plan.recallList.Sublist s.plan.recallList := by
  cases m with
  | call e rest list =>
    exact (callCar_sublist _ _).trans (by rw [list]; exact List.sublist_cons_self e rest)
  | endRecall => rw [endRecall_plan]
  | drop d r => rw [dropEntry_plan]
  | deselect d => rw [deselect_plan]; exact List.filter_sublist
  | land => rw [orderToLand_plan]
  | landReverse => rw [orderToLand_plan]
  | select d => rw [selectCar_plan]
  | carGrant d => rw [carGrant_plan]
  | _ => exact .refl _

theorem listed_iff : listed s c = true ↔ ∃ e ∈ s.plan.recallList, e.car = c := by
  simp [listed]

theorem not_listed_iff : listed s c = false ↔ ∀ e ∈ s.plan.recallList, e.car ≠ c := by
  simp [listed]

theorem Move.unlisted (m : Move s t) (h : listed s c = false) : listed t c = false :=
  not_listed_iff.2 fun e he => not_listed_iff.1 h e (m.list_sublist.subset he)

theorem Move.unqueued (m : Move s t) (h : c ∉ s.queue.entries) : c ∉ t.queue.entries :=
  fun he => h (m.entries_sublist.subset he)

/-! ## A car apart -/

/-- The record of a car whose trip may have been ordered to land. -/
def CarRecord.ordered (r : CarRecord) (b : Bool) : CarRecord :=
  { r with trip := { r.trip with shedOrdered := b } }

section
variable (r : CarRecord) (b : Bool)
@[simp] theorem CarRecord.ordered_role : (r.ordered b).role = r.role := rfl
@[simp] theorem CarRecord.ordered_preLoss : (r.ordered b).preLoss = r.preLoss := rfl
@[simp] theorem CarRecord.ordered_powered : (r.ordered b).powered = r.powered := rfl
@[simp] theorem CarRecord.ordered_slotStart : (r.ordered b).slotStart = r.slotStart := rfl
@[simp] theorem CarRecord.ordered_recallTimer : (r.ordered b).recallTimer = r.recallTimer := rfl
@[simp] theorem CarRecord.ordered_state : (r.ordered b).trip.state = r.trip.state := rfl
@[simp] theorem CarRecord.ordered_verdict : (r.ordered b).trip.verdict = r.trip.verdict := rfl
end

/-- Car c stands in no list and in no role on which a move of an event's end acts, but for the order to land. -/
structure State.Apart (s : State) (c : CarIx) : Prop where
  role : s.role c ≠ .parked ∧ s.role c ≠ .service
  idle : (s.trip c).state ≠ .waiting
  unqueued : c ∉ s.queue.entries
  unlisted : listed s c = false

theorem RecordMove.of_apart {r : CarRecord} (m : RecordMove s c r) (h : s.Apart c) :
    r = (s.car c).ordered r.trip.shedOrdered := by
  cases m with
  | same => rfl
  | called some => exact absurd some (by simpa [listed] using h.unlisted)
  | parked some => exact absurd some (by simpa [listed] using h.unlisted)
  | dropped waits => exact absurd waits h.idle
  | deselected may => exact absurd may.1 h.role.2
  | ordered => rfl
  | selected allowed can =>
    refine absurd ?_ h.role.1
    simp only [canSelect, Bool.and_eq_true, beq_iff_eq] at can
    exact can.1.1.1
  | granted allowed queued => exact absurd queued h.unqueued

/-- What is left of a car apart. -/
structure State.LeftApart (s t : State) (c : CarIx) : Prop where
  apart : t.Apart c
  record : t.car c = (s.car c).ordered (t.trip c).shedOrdered

theorem Moves.leftApart (m : Moves s t) (h : s.Apart c) : s.LeftApart t c := by
  refine Moves.keeps (P := fun u => s.LeftApart u c) (fun u v left k => ?_) m ⟨h, rfl⟩
  have record := (k.record c).of_apart left.apart
  rw [left.record] at record
  have same : v.car c = (s.car c).ordered (v.trip c).shedOrdered := record
  have role : v.role c = s.role c := by rw [State.role, same]; rfl
  have state : (v.trip c).state = (s.trip c).state := by rw [State.trip, same]; rfl
  exact ⟨⟨by rw [role]; exact h.role, by rw [state]; exact h.idle, k.unqueued left.apart.unqueued,
    k.unlisted left.apart.unlisted⟩, same⟩

/-! ## A car off the supply -/

/-- Car c's trip is NONE and stands in no list of trips. -/
structure State.Quit (s : State) (c : CarIx) : Prop where
  idle : (s.trip c).state = .none
  unqueued : c ∉ s.queue.entries
  unstacked : c ∉ s.gate.stack
  unheld : s.gate.holder ≠ .car c
  spared : ∀ v ∈ s.shed.victims, v.car ≠ c

theorem RecordMove.idle {r : CarRecord} (m : RecordMove s c r) (idle : (s.trip c).state = .none)
    (unqueued : c ∉ s.queue.entries) : r.trip.state = .none := by
  cases m with
  | dropped => rfl
  | deselected =>
    rw [dropEntry_car]
    split
    · rfl
    · exact idle
  | granted allowed queued => exact absurd queued unqueued
  | _ => exact idle

theorem Move.gate_of_unqueued (m : Move s t) (out : c ∉ s.queue.entries) :
    (c ∉ s.gate.stack → c ∉ t.gate.stack) ∧ (s.gate.holder ≠ .car c → t.gate.holder ≠ .car c) := by
  have kept (same : t.gate = s.gate) :
      (c ∉ s.gate.stack → c ∉ t.gate.stack) ∧ (s.gate.holder ≠ .car c → t.gate.holder ≠ .car c) := by
    rw [same]; exact ⟨id, id⟩
  cases m with
  | call => exact kept (by rw [callCar_gate])
  | endRecall => exact kept (endRecall_gate s)
  | drop d r => exact kept (dropEntry_gate d r s)
  | deselect d => exact kept (deselect_gate d s)
  | land => exact kept (by simp [orderToLand])
  | landReverse => exact kept (by simp [orderToLand])
  | select => exact kept (by simp [selectCar])
  | carGrant d opened allowed candidate =>
    have other : d ≠ c := fun same => out (same ▸ candidates_subset candidate)
    rw [Machine.carGrant, State.noticeCar_gate]
    show (c ∉ s.gate.stack → c ∉ (removeEntry d _).gate.stack ++ [d]) ∧ (_ → Holder.car d ≠ .car c)
    rw [removeEntry, setEntries_gate, State.updCar_gate]
    refine ⟨fun off on => ?_, fun _ same => other (by injection same)⟩
    rcases List.mem_append.1 on with on | on
    · exact off on
    · exact other (List.mem_singleton.1 on).symm
  | panelGrant e => exact ⟨id, fun _ same => by cases same⟩
  | _ => exact kept rfl

theorem Move.victims (m : Move s t) : ∀ v ∈ t.shed.victims,
    v ∈ s.shed.victims ∨ (s.trip v.car).state = .running := by
  have kept (same : t.control = s.control) : ∀ v ∈ t.shed.victims,
      v ∈ s.shed.victims ∨ (s.trip v.car).state = .running := by
    rw [(State.control_iff.1 same).2]; exact fun v hv => .inl hv
  have lands {d : CarIx} {k : VictimKind} {n : Nat} (runs : (s.trip d).state = .running) :
      ∀ v ∈ (orderToLand d k n s).shed.victims, v ∈ s.shed.victims ∨ (s.trip v.car).state = .running := by
    intro v hv
    rw [orderToLand_victims] at hv
    rcases List.mem_append.1 hv with old | new
    · exact .inl old
    · rw [List.mem_singleton.1 new]; exact .inr runs
  cases m with
  | call => exact kept (callCar_control ..)
  | endRecall => exact kept (endRecall_control s)
  | drop d r => exact kept (dropEntry_control ..)
  | deselect d => exact kept (deselect_control ..)
  | land d role f holds which victim => exact lands (landVictim_some victim).1.2.2.1
  | landReverse d holds victim => exact lands (reverseVictim_some victim).2.2.1
  | select => exact kept (selectCar_control ..)
  | carGrant => exact kept (carGrant_control ..)
  | overcommitBegins => exact fun v hv => .inl hv
  | overcommitEnds => exact fun v hv => absurd hv (by simp [Machine.overcommitEnds, shedIdle])
  | _ => exact kept rfl

theorem Moves.quit (m : Moves s t) (h : s.Quit c) : t.Quit c := by
  refine Moves.keeps (P := fun u => u.Quit c) (fun u v quit k => ?_) m h
  obtain ⟨stack, holder⟩ := k.gate_of_unqueued quit.unqueued
  refine ⟨(k.record c).idle quit.idle quit.unqueued, k.unqueued quit.unqueued, stack quit.unstacked,
    holder quit.unheld, fun w hw same => ?_⟩
  rcases k.victims w hw with old | runs
  · exact quit.spared w old same
  · rw [same, quit.idle] at runs; cases runs

end Sys2Proof.Machine
end

section
/-!
PROOFS. A car link that times out (R50 to R52): what freezing its car leaves of it; and O41.
-/

namespace Sys2Proof.Machine

variable {s t : State} {c d : CarIx}

/-! ## The frozen car -/

/-- The record with its entry, if it waits, dropped for a reason. -/
def CarRecord.dropped (r : CarRecord) (reason : DropReason) : CarRecord :=
  if r.trip.state = .waiting then { r with trip := { r.trip with state := .none, verdict := .dropped reason } }
  else r

theorem dropEntry_self (c : CarIx) (r : DropReason) (s : State) :
    (dropEntry c r s).car c = (s.car c).dropped r := by
  rw [dropEntry_car, CarRecord.dropped]
  by_cases waits : (s.trip c).state = .waiting
  · rw [if_pos ⟨rfl, waits⟩, if_pos (show (s.car c).trip.state = .waiting from waits)]; rfl
  · rw [if_neg fun k => waits k.2, if_neg (show (s.car c).trip.state ≠ .waiting from waits)]

/-- The record of a car made LOST: one already LOST keeps its pre-loss role (log 14). -/
def CarRecord.lose (r : CarRecord) : CarRecord :=
  if r.role = .lost then r else { r with preLoss := some r.role, role := .lost }

theorem freezeCar_car (c : CarIx) (s : State) :
    (freezeCar c s).car c = ((s.car c).dropped .link).lose := by
  unfold freezeCar
  extract_lets t p u
  have own : u.car c = (s.car c).dropped .link := dropEntry_self c .link s
  rw [State.noticePanel_car, CarRecord.lose, ← own]
  split
  · rename_i lost; exact (if_pos (show (u.car c).role = .lost from lost)).symm
  · rename_i live
    rw [State.updCar_car_same]
    exact (if_neg (show (u.car c).role ≠ .lost from live)).symm

theorem freezeCar_plan (c : CarIx) (s : State) : (freezeCar c s).plan =
    { s.plan with recallList := s.plan.recallList.filter fun e => e.car != c } := by
  unfold freezeCar
  dsimp only
  rw [State.noticePanel_plan, dropEntry_plan]
  split
  · rfl
  · rfl

theorem freezeCar_queue (c : CarIx) (s : State) :
    (freezeCar c s).queue = (dropEntry c .link s).queue := by
  unfold freezeCar
  dsimp only
  rw [State.noticePanel_queue]
  split
  · rfl
  · rfl

theorem State.hasNotice_noticePanel (s : State) (k : PanelNotice) :
    (s.noticePanel k).hasNotice .panel k.number = true := by
  rw [State.noticePanel, State.hasNotice, State.setNotice, State.updPort_port_same]
  cases k <;> simp [noticeBit, PanelNotice.number]

theorem freezeCar_told (c : CarIx) (s : State) :
    (freezeCar c s).hasNotice .panel PanelNotice.carLost.number = true :=
  State.hasNotice_noticePanel _ .carLost

theorem freezeCar_only (c : CarIx) (s : State) : OnlyDecisions s (freezeCar c s) := by
  unfold freezeCar
  extract_lets t p u
  have left : OnlyDecisions s u := (dropEntry_only (.refl s) c .link).thenParts
    rfl rfl rfl rfl rfl rfl rfl rfl rfl rfl rfl
  refine OnlyDecisions.thenPanel ?_
  split
  · exact left
  · exact left.thenUpdCar (fun _ => by rfl) (fun _ => by rfl)

theorem CarRecord.lose_keeps (r : CarRecord) : r.lose.role = .lost ∧ r.lose.trip = r.trip ∧
    r.lose.powered = r.powered ∧ r.lose.slotStart = r.slotStart ∧ r.lose.recallTimer = r.recallTimer ∧
    r.lose.preLoss = if r.role = .lost then r.preLoss else some r.role := by
  unfold CarRecord.lose
  split
  · rename_i lost; exact ⟨lost, rfl, rfl, rfl, rfl, rfl⟩
  · exact ⟨rfl, rfl, rfl, rfl, rfl, rfl⟩

theorem CarRecord.dropped_keeps (r : CarRecord) (reason : DropReason) :
    (r.dropped reason).role = r.role ∧ (r.dropped reason).preLoss = r.preLoss ∧
    (r.dropped reason).powered = r.powered ∧ (r.dropped reason).slotStart = r.slotStart ∧
    (r.dropped reason).recallTimer = r.recallTimer := by
  unfold CarRecord.dropped
  split
  · exact ⟨rfl, rfl, rfl, rfl, rfl⟩
  · exact ⟨rfl, rfl, rfl, rfl, rfl⟩

theorem CarRecord.dropped_state (r : CarRecord) (reason : DropReason) : (r.dropped reason).trip.state =
    if r.trip.state = .waiting then .none else r.trip.state := by
  unfold CarRecord.dropped
  split
  · rfl
  · rfl

theorem CarRecord.dropped_verdict {r : CarRecord} (waits : r.trip.state = .waiting) (reason : DropReason) :
    (r.dropped reason).trip.verdict = .dropped reason := by
  rw [CarRecord.dropped, if_pos waits]

/-- A dropped entry leaves its car idle and out of the queue. -/
theorem dropEntry_unqueued (waits : c ∈ s.queue.entries → (s.trip c).state = .waiting) (r : DropReason) :
    c ∉ (dropEntry c r s).queue.entries := by
  rw [dropEntry_entries]
  split
  · simp
  · rename_i idle; exact fun queued => idle (waits queued)

theorem CarRecord.dropped_idle (r : CarRecord) (reason : DropReason) :
    (r.dropped reason).trip.state ≠ .waiting := by
  rw [CarRecord.dropped_state]
  split
  · decide
  · assumption

/-! ## The statement -/

/-- Only the link of car c has gone. -/
def State.linkCut (s : State) (c : CarIx) : State :=
  s.updCar c fun r => { r with link := .lost, linkTimer := none }

theorem State.linkCut_car (s : State) (c : CarIx) :
    (s.linkCut c).car c = { s.car c with link := .lost, linkTimer := none } :=
  State.updCar_car_same ..

theorem State.linkCut_trip (s : State) (c : CarIx) : (s.linkCut c).trip c = s.trip c := by
  rw [State.trip, s.linkCut_car]; rfl

theorem freezeCar_apart (h : s.Consistent) (c : CarIx) : (freezeCar c (s.linkCut c)).Apart c := by
  have record := freezeCar_car c (s.linkCut c)
  obtain ⟨role, trip, -⟩ := ((s.linkCut c).car c |>.dropped .link).lose_keeps
  refine ⟨?_, ?_, ?_, not_listed_iff.2 ?_⟩
  · rw [State.role, record, role]; exact ⟨by decide, by decide⟩
  · rw [State.trip, record, trip]; exact CarRecord.dropped_idle _ _
  · rw [freezeCar_queue]
    exact dropEntry_unqueued (fun queued => by rw [s.linkCut_trip]; exact (h.queueExact c).1 queued) .link
  · rw [freezeCar_plan]; exact not_listed_filter c s.plan.recallList

/-- What an event that began with the freezing leaves of the car. -/
theorem frozen_left (h : s.Consistent) (m : Moves (freezeCar c (s.linkCut c)) t) :
    OnlyDecisions (s.linkCut c) t ∧ t.role c = .lost ∧
    (t.car c).preLoss = (if s.role c = .lost then (s.car c).preLoss else some (s.role c)) ∧
    (t.car c).powered = (s.car c).powered ∧
    (t.trip c).state = (if (s.trip c).state = .waiting then .none else (s.trip c).state) ∧
    ((s.trip c).state = .waiting → (t.trip c).verdict = .dropped .link) ∧
    (t.car c).slotStart = (s.car c).slotStart ∧ (t.car c).recallTimer = (s.car c).recallTimer ∧
    c ∉ t.queue.entries ∧ listed t c = false ∧
    t.hasNotice .panel PanelNotice.carLost.number = true := by
  obtain ⟨apart, record⟩ := m.leftApart (freezeCar_apart h c)
  obtain ⟨role, trip, power, slot, timer, before⟩ := ((s.linkCut c).car c |>.dropped .link).lose_keeps
  obtain ⟨was, kept, power', slot', timer'⟩ := ((s.linkCut c).car c).dropped_keeps .link
  rw [freezeCar_car] at record
  refine ⟨(freezeCar_only c _).trans m.only, ?_, ?_, ?_, ?_, fun waits => ?_, ?_, ?_, apart.unqueued,
    apart.unlisted, m.only.hasNotice (freezeCar_told c _)⟩
  · rw [State.role, record, CarRecord.ordered_role, role]
  · rw [record, CarRecord.ordered_preLoss, before, was, kept, s.linkCut_car]; rfl
  · rw [record, CarRecord.ordered_powered, power, power', s.linkCut_car]
  · rw [State.trip, record, CarRecord.ordered_state, trip, CarRecord.dropped_state, s.linkCut_car]; rfl
  · rw [State.trip, record, CarRecord.ordered_verdict, trip]
    exact CarRecord.dropped_verdict (by rw [s.linkCut_car]; exact waits) _
  · rw [record, CarRecord.ordered_slotStart, slot, slot', s.linkCut_car]
  · rw [record, CarRecord.ordered_recallTimer, timer, timer', s.linkCut_car]

/-- Settles O41: the frozen car stands apart, so the rest of the event leaves its record. -/
theorem carLinkLost : Obligations.CarLinkLost := by
  unfold Obligations.CarLinkLost
  intro s c up timed
  have run : exec (.carLinkTimeout c) s = .next (closeEvent {} s (loseCarLink c s)) :=
    congrArg Host.Outcome.next (if_pos ⟨up, timed⟩)
  refine ⟨fun off settled => ?_, fun on consistent => ⟨_, run, ?_⟩⟩
  · have cut : loseCarLink c s = s.linkCut c := if_neg (by rw [State.updCar_plan, off]; decide)
    rw [run, cut]
    exact congrArg _ ((State.Unread.updCar s c ⟨by rfl, rfl, rfl, rfl⟩).closeEvent settled)
  · have frozen : loseCarLink c s = freezeCar c (s.linkCut c) := if_pos on
    rw [frozen]
    exact frozen_left consistent (closeEvent_moves {} s _)

end Sys2Proof.Machine
end

section
/-!
PROOFS. RELEASE-CAR (R58): the units of a request with one or two arguments, the record of a LOST car released; and
O39.
-/

namespace Sys2Proof.Machine

variable {s t : State} {c d : CarIx} {p : Port} {r : Request}

/-! ## A request that comes whole -/

/-- The state on which a request that came whole on a port acts. -/
def requestStart (p : Port) (s : State) : State := linkUp p (s.updPort p (.opened none none))

/-- An argument unit after which the request goes on. -/
theorem shiftUnit_goesOn (h : ignores s p = false) {l : List Byte} {u : Byte}
    (more : ∀ x, handUnit p ⟨r, l ++ [u]⟩ x = setRequest p (some ⟨r, l ++ [u]⟩) x) :
    shiftUnit p true u (s.updPort p (.opened (some ⟨r, l⟩) none)) =
      s.updPort p (.opened (some ⟨r, l ++ [u]⟩) none) := by
  rw [shiftUnit_handed (ignores_opened h _ _) (by rw [State.updPort_port_same]; rfl)]
  dsimp only
  rw [more, setRequest, State.updPort_updPort, State.updPort_updPort]
  rfl

/-- The last argument unit, at which the request acts. -/
theorem shiftUnit_last (h : ignores s p = false) {l : List Byte} {u : Byte}
    {act : State → State × ReqOutcome}
    (last : ∀ x, handUnit p ⟨r, l ++ [u]⟩ x = complete p act x) :
    shiftUnit p true u (s.updPort p (.opened (some ⟨r, l⟩) none)) =
      setOutcome p (act (requestStart p s)).2 (act (requestStart p s)).1 := by
  rw [shiftUnit_handed (ignores_opened h _ _) (by rw [State.updPort_port_same]; rfl)]
  dsimp only
  rw [last, complete, setRequest, State.updPort_updPort, State.updPort_updPort]
  rfl

/-- A request with one argument. -/
theorem arrive_one (h : ignores s p = false) (named : Request.ofCode p r.code = some r)
    (writes : r.isRead = false) (plain : r ≠ .profile) (takes : r.argUnits [] ≠ 0) {u : Byte}
    {act : State → State × ReqOutcome} (last : ∀ x, handUnit p ⟨r, [u]⟩ x = complete p act x) :
    arrive p r (.opened [u]) s = setOutcome p (act (requestStart p s)).2 (act (requestStart p s)).1 := by
  show shiftUnit p true u (shiftOpcode p r.code s) = _
  rw [shiftOpcode_opens h named writes plain takes]
  exact shiftUnit_last h last

/-- A request with two arguments. -/
theorem arrive_two (h : ignores s p = false) (named : Request.ofCode p r.code = some r)
    (writes : r.isRead = false) (plain : r ≠ .profile) (takes : r.argUnits [] ≠ 0) {u v : Byte}
    {act : State → State × ReqOutcome} (more : ∀ x, handUnit p ⟨r, [u]⟩ x = setRequest p (some ⟨r, [u]⟩) x)
    (last : ∀ x, handUnit p ⟨r, [u, v]⟩ x = complete p act x) :
    arrive p r (.opened [u, v]) s = setOutcome p (act (requestStart p s)).2 (act (requestStart p s)).1 := by
  show shiftUnit p true v (shiftUnit p true u (shiftOpcode p r.code s)) = _
  have first := shiftUnit_goesOn (r := r) (l := []) (u := u) h more
  rw [List.nil_append] at first
  rw [shiftOpcode_opens h named writes plain takes, first]
  exact shiftUnit_last h last

/-- A closed panel request that has changed nothing yet and then changes nothing. -/
theorem closing_refused (settled : s.Settled) {act : State → State × ReqOutcome} {o : ReqOutcome}
    (refused : act (reserveStart s) = (reserveStart s, o)) :
    setOutcome .panel (closing {} act (reserveStart s)).2 (closing {} act (reserveStart s)).1 =
      panelAnswered o s := by
  have start : (reserveStart s).Settled := settled.of_same (.parts rfl rfl rfl rfl rfl) rfl
  rw [closing, refused]
  dsimp only
  rw [closeEvent_self start, reserveStart_answered]

/-! ## The service order and the phase through the moves -/

theorem Move.unserved (m : Move s t) (role : s.role c ≠ .parked) (out : c ∉ s.plan.serviceOrder) :
    c ∉ t.plan.serviceOrder := by
  cases m with
  | call e rest =>
    unfold Machine.callCar
    split
    · exact fun on => out (List.mem_filter.1 on).1
    · rw [State.noticeCar_plan]; exact out
  | endRecall => rw [endRecall_plan]; exact out
  | drop d r => rw [dropEntry_plan]; exact out
  | deselect d => rw [deselect_plan]; exact fun on => out (List.mem_filter.1 on).1
  | land => rw [orderToLand_plan]; exact out
  | landReverse => rw [orderToLand_plan]; exact out
  | select d allowed can =>
    rw [selectCar_plan]
    intro on
    rcases List.mem_append.1 on with on | on
    · exact out on
    · rw [List.mem_singleton.1 on] at role
      simp only [canSelect, Bool.and_eq_true, beq_iff_eq] at can
      exact role can.1.1.1
  | carGrant => rw [carGrant_plan]; exact out
  | _ => exact out

theorem Moves.unserved (m : Moves s t) (h : s.Apart c) (out : c ∉ s.plan.serviceOrder) :
    c ∉ t.plan.serviceOrder := by
  refine (Moves.keeps (P := fun u => u.Apart c ∧ c ∉ u.plan.serviceOrder) (fun u v kept k => ?_) m
    ⟨h, out⟩).2
  exact ⟨((Moves.one k).leftApart kept.1).apart, k.unserved kept.1.role.1 kept.2⟩

theorem Move.phase_of_mains (m : Move s t) (off : s.plan.phase.generator = false) :
    t.plan.phase = s.plan.phase := by
  cases m with
  | call e rest => rw [callCar_phase]
  | endRecall ended => rw [recallOver_phase ended] at off; cases off
  | drop d r => rw [dropEntry_plan]
  | deselect d => rw [deselect_plan]
  | land => rw [orderToLand_plan]
  | landReverse => rw [orderToLand_plan]
  | select d => rw [selectCar_plan]
  | carGrant => rw [carGrant_plan]
  | _ => rfl

theorem canCall_generator (may : canCall s = true) : s.plan.phase.generator = true := by
  simp only [canCall, Bool.and_eq_true, Bool.or_eq_true, beq_iff_eq] at may
  rcases may.1.1.1 with e | e <;> rw [e] <;> rfl

theorem selectionAllowed_generator (allowed : selectionAllowed s = true) :
    s.plan.phase.generator = true := by
  simp only [selectionAllowed, Bool.and_eq_true, beq_iff_eq] at allowed
  rw [allowed.1.1]; rfl

/-- In START and MAINS no move touches a car's role but the controller's own deselection. -/
theorem Moves.free (m : Moves s t) (off : s.plan.phase.generator = false) (free : s.role c = .free) :
    t.role c = .free := by
  refine (Moves.keeps (P := fun u => u.plan.phase.generator = false ∧ u.role c = .free)
    (fun u v kept k => ?_) m ⟨off, free⟩).2
  obtain ⟨off, free⟩ := kept
  refine ⟨by rw [k.phase_of_mains off]; exact off, ?_⟩
  have record := k.record c
  show (v.car c).role = .free
  generalize v.car c = r at record
  cases record with
  | called listed may => rw [canCall_generator may] at off; cases off
  | parked listed may => rw [canCall_generator may] at off; cases off
  | deselected may => rw [may.1] at free; cases free
  | selected allowed => rw [selectionAllowed_generator allowed] at off; cases off
  | _ => exact free

theorem RecordMove.keeps {q : CarRecord} (m : RecordMove s c q) :
    q.preLoss = (s.car c).preLoss ∧ q.recallFailed = (s.car c).recallFailed ∧
    q.pendExcl = (s.car c).pendExcl ∧ q.pendUnavail = (s.car c).pendUnavail := by
  cases m with
  | deselected =>
    rw [dropEntry_car]
    split
    · exact ⟨rfl, rfl, rfl, rfl⟩
    · exact ⟨rfl, rfl, rfl, rfl⟩
  | _ => exact ⟨rfl, rfl, rfl, rfl⟩

/-- No move touches the pre-loss role, the recall-failed flag, or what an exclusion or unavailability awaits. -/
theorem Moves.record_flags (m : Moves s t) (c : CarIx) :
    (t.car c).preLoss = (s.car c).preLoss ∧ (t.car c).recallFailed = (s.car c).recallFailed ∧
    (t.car c).pendExcl = (s.car c).pendExcl ∧ (t.car c).pendUnavail = (s.car c).pendUnavail := by
  refine m.record_keeps (P := fun q => q.preLoss = (s.car c).preLoss ∧
    q.recallFailed = (s.car c).recallFailed ∧ q.pendExcl = (s.car c).pendExcl ∧
    q.pendUnavail = (s.car c).pendUnavail) (fun u q kept k => ?_) ⟨rfl, rfl, rfl, rfl⟩
  obtain ⟨preLoss, failed, excl, unavail⟩ := kept
  obtain ⟨preLoss', failed', excl', unavail'⟩ := k.keeps
  exact ⟨preLoss'.trans preLoss, failed'.trans failed, excl'.trans excl, unavail'.trans unavail⟩

/-- No move makes a deselection pending. -/
theorem Moves.pendDesel_none (m : Moves s t) (none : (s.car c).pendDesel = false) :
    (t.car c).pendDesel = false := by
  refine m.record_keeps (P := fun q => q.pendDesel = false) (fun u q kept k => ?_) none
  cases k with
  | deselected => rfl
  | _ => exact kept

/-! ## A LOST car released -/

theorem clearanceCheck_others (s : State) : (clearanceCheck s).gate = s.gate ∧
    (clearanceCheck s).queue = s.queue ∧ (clearanceCheck s).shed = s.shed ∧
    (clearanceCheck s).plan.serviceOrder = s.plan.serviceOrder ∧
    (clearanceCheck s).plan.phase = s.plan.phase := by
  unfold clearanceCheck
  split
  · exact ⟨rfl, rfl, rfl, rfl, rfl⟩
  · exact ⟨rfl, rfl, rfl, rfl, rfl⟩

theorem endFrozen_gate (c : CarIx) (role : Role) (s : State) :
    (endFrozen c role s).gate = (endTrip c s).gate := by
  rw [endFrozen_eq, (clearanceCheck_others _).1]
  rfl

theorem endFrozen_queue (c : CarIx) (role : Role) (s : State) : (endFrozen c role s).queue = s.queue := by
  rw [endFrozen_eq, (clearanceCheck_others _).2.1]
  exact State.CarAgrees.endTrip_queue c s

theorem endFrozen_victims (c : CarIx) (role : Role) (s : State) :
    ∀ v ∈ (endFrozen c role s).shed.victims, v.car ≠ c := by
  rw [endFrozen_eq, (clearanceCheck_others _).2.2.1]
  show ∀ v ∈ (endTrip c s).shed.victims.filter fun v => v.car != c, v.car ≠ c
  simp

theorem endFrozen_order (c : CarIx) (role : Role) (s : State) :
    c ∉ (endFrozen c role s).plan.serviceOrder := by
  rw [endFrozen_eq, (clearanceCheck_others _).2.2.2.1]
  show c ∉ (endTrip c s).plan.serviceOrder.filter fun d => d != c
  simp

theorem endFrozen_phase (c : CarIx) (role : Role) (s : State) :
    (endFrozen c role s).plan.phase = s.plan.phase := by
  rw [endFrozen_eq, (clearanceCheck_others _).2.2.2.2]
  show (endTrip c s).plan.phase = s.plan.phase
  rw [endTrip_plan]

/-- Only a car in CAR_START holds the gate. -/
theorem State.Consistent.holds (h : s.Consistent) (holder : s.gate.holder = .car c) :
    s.gate.state = .carStart := by
  by_contra other
  by_cases panel : s.gate.state = .panelStart
  · rw [h.holder.2.1 panel] at holder; cases holder
  · rw [h.holder.2.2 other panel] at holder; cases holder

/-- The end of its trip takes a car off the gate. -/
theorem endTrip_gate (holds : s.gate.holder = .car c → s.gate.state = .carStart) :
    c ∉ (endTrip c s).gate.stack ∧ (endTrip c s).gate.holder ≠ .car c := by
  refine ⟨by simp [endTrip, leaveStack], ?_⟩
  show (endWindowOf c (s.updTrip c _)).gate.holder ≠ .car c
  unfold endWindowOf
  split
  · exact fun k => by cases k
  · rename_i other; exact fun holder => other ⟨holds holder, holder⟩

theorem endFrozen_quit (h : s.Consistent) (lost : s.role c = .lost) (role : Role) :
    (endFrozen c role s).Quit c where
  idle := by rw [State.trip, endFrozen_car, if_pos rfl]; rfl
  unqueued := by
    rw [endFrozen_queue]
    intro queued
    rcases h.waitingRole c ((h.queueExact c).1 queued) with e | e <;> rw [lost] at e <;> cases e
  unstacked := by rw [endFrozen_gate]; exact (endTrip_gate h.holds).1
  unheld := by rw [endFrozen_gate]; exact (endTrip_gate h.holds).2
  spared := endFrozen_victims c role s

theorem endFrozen_apart (h : s.Consistent) (lost : s.role c = .lost) {role : Role}
    (away : role ≠ .parked ∧ role ≠ .service) : (endFrozen c role s).Apart c where
  role := by rw [State.role, endFrozen_car, if_pos rfl]; exact away
  idle := by rw [(endFrozen_quit h lost role).idle]; decide
  unqueued := (endFrozen_quit h lost role).unqueued
  unlisted := not_listed_iff.2 (by rw [endFrozen_list]; exact not_listed_filter c s.plan.recallList)

/-! ## The statement -/

theorem exec_releaseCar (h : ignores s .panel = false) (ix : Byte) :
    exec (.releaseCar (.opened [ix])) s = .next (setOutcome .panel
      (closing {} (takeRelease ix) (reserveStart s)).2 (closing {} (takeRelease ix) (reserveStart s)).1) :=
  congrArg Host.Outcome.next (arrive_one (r := .releaseCar) h (by decide) (by decide) (by decide) (by decide)
    fun _ => rfl)

/-- The LOST car of a RELEASE-CAR, in START and MAINS. -/
def State.freed (s : State) (c : CarIx) : State := s.updCar c fun r => { r with role := .free, preLoss := none }

theorem State.freed_only (s : State) (c : CarIx) : OnlyDecisions s (s.freed c) :=
  .updCar s c _ (fun _ => by rfl) fun _ => by rfl

theorem takeRelease_lost {ix : Byte} (named : carIxOf ix = some c) (on : s.configured c = true)
    (lost : s.role c = .lost) : takeRelease ix s =
      (if s.plan.phase.generator then endFrozen c .unavailable s else s.freed c, .accepted) := by
  unfold takeRelease
  rw [named]
  dsimp only
  rw [if_neg (by rw [on, lost]; simp)]
  split
  · rfl
  · rfl

theorem takeRelease_refused {ix : Byte} (named : carIxOf ix = some c)
    (off : s.configured c = false ∨ s.role c ≠ .lost) : takeRelease ix s = (s, .notPermitted) := by
  unfold takeRelease
  rw [named]
  exact if_pos off

theorem reserveStart_consistent (h : s.Consistent) : (reserveStart s).Consistent :=
  ⟨h.queueNodup, h.queueExact, h.stackNodup, h.stackExact, h.waitingRole, h.listNodup, h.listHeld,
    h.chargedRole, h.chargedLost, h.quiet, h.closed, h.holder, h.windows, h.held, h.oneClaim, h.closedClaims⟩

/-- What an event that began with the release in a generator phase leaves of the car. -/
theorem released_left (h : s.Consistent) (lost : s.role c = .lost)
    (m : Moves (endFrozen c .unavailable s) t) :
    t.role c = .unavailable ∧ (t.trip c).state = .none ∧ (t.car c).powered = false ∧
      c ∉ t.gate.stack ∧ c ∉ t.plan.serviceOrder ∧ t.gate.holder ≠ .car c ∧
      (∀ v ∈ t.shed.victims, v.car ≠ c) ∧
      (t.car c).pendExcl = false ∧ (t.car c).pendUnavail = false ∧ (t.car c).pendDesel = false := by
  have away := endFrozen_apart h lost (role := .unavailable) ⟨by decide, by decide⟩
  have quit := m.quit (endFrozen_quit h lost .unavailable)
  have record := (m.leftApart away).record
  rw [endFrozen_car, if_pos rfl] at record
  refine ⟨by rw [State.role, record]; rfl, quit.idle, by rw [record]; rfl, quit.unstacked,
    m.unserved away (endFrozen_order _ _ _), quit.unheld, quit.spared, by rw [record]; rfl,
    by rw [record]; rfl, by rw [record]; rfl⟩

/-- Settles O39: the released car has quit every list, and no move of the event's end takes it back. -/
theorem releaseCarCompletes : Obligations.ReleaseCarCompletes := by
  unfold Obligations.ReleaseCarCompletes
  intro s ix h
  refine ⟨fun above settled => ?_, fun index => ⟨fun off settled => ?_, fun on lost => ⟨_, exec_releaseCar h ix, ?_⟩⟩⟩
  · rw [exec_releaseCar h, closing_refused settled]
    unfold takeRelease
    rw [show carIxOf ix = none from dif_neg (by omega)]
  · rw [exec_releaseCar h, closing_refused settled]
    exact takeRelease_refused (dif_pos index) off
  · have taken := takeRelease_lost (s := reserveStart s) (ix := ix) (dif_pos index) on lost
    have outcome : (closing {} (takeRelease ix) (reserveStart s)).2 = .accepted := congrArg Prod.snd taken
    have moves : Moves (takeRelease ix (reserveStart s)).1 (closing {} (takeRelease ix) (reserveStart s)).1 :=
      closeEvent_moves ..
    rw [outcome, ← reserveStart_answered]
    rw [taken] at moves
    generalize (closing {} (takeRelease ix) (reserveStart s)).1 = t at moves ⊢
    by_cases running : s.plan.phase.generator = true
    · rw [if_pos (show (reserveStart s).plan.phase.generator = true from running)] at moves
      refine ⟨((endFrozen_only (.refl _) _ _).trans moves.only).updPort (setOutcome_act _) _, ?_,
        fun off => ?_, fun consistent _ => ?_⟩
      · refine (moves.record_flags _).1.trans ?_
        rw [endFrozen_car, if_pos rfl]
        rfl
      · rw [running] at off; cases off
      · exact released_left (t := t) (reserveStart_consistent consistent) lost moves
    · rw [if_neg (show ¬ (reserveStart s).plan.phase.generator = true from running)] at moves
      refine ⟨((State.freed_only _ _).trans moves.only).updPort (setOutcome_act _) _, ?_, fun off => ?_, fun _ on => absurd on running⟩
      · refine (moves.record_flags _).1.trans ?_
        rw [State.freed, State.updCar_car_same]
      · exact moves.free off (by rw [State.freed, State.role, State.updCar_car_same])

end Sys2Proof.Machine
end

section
/-!
PROOFS. A car made HELD, or restored to it, and handed back (R57, R105 to R108, R112): where the calls and the rest of
the event leave it.
-/

namespace Sys2Proof.Machine

variable {s t : State} {c d : CarIx}

theorem tierOf_eq (r : CarRecord) : tierOf r = r.tierNow := by
  unfold tierOf CarRecord.tierNow
  cases r.position <;> cases r.occupied <;> rfl

/-! ## The moves on another car's record and place -/

theorem callCar_keeps_order (ne : c ≠ d) (on : c ∈ s.plan.serviceOrder) :
    c ∈ (callCar d s).plan.serviceOrder := by
  unfold callCar
  split
  · exact List.mem_filter.2 ⟨on, by simpa using ne⟩
  · rw [State.noticeCar_plan]; exact on

theorem callCar_keeps_entry {e : RecallEntry} (ne : e.car ≠ d) (on : e ∈ s.plan.recallList) :
    e ∈ (callCar d s).plan.recallList := by
  unfold callCar
  split
  · exact List.mem_filter.2 ⟨on, by simpa using ne⟩
  · rw [State.noticeCar_plan]; exact on

theorem orderToLand_ordered (c d : CarIx) (k : VictimKind) (n : Nat) (s : State) :
    ∃ b, (orderToLand d k n s).car c = (s.car c).ordered b := by
  rw [orderToLand_car]
  split
  · rename_i same; rw [same]; exact ⟨true, rfl⟩
  · exact ⟨_, rfl⟩

/-! ## A car at its landing -/

/-- The car is PARKED and unpowered, or has been selected. -/
def State.AtLanding (t : State) (c : CarIx) : Prop :=
  t.role c = .parked ∧ (t.car c).powered = false ∨ t.role c = .service ∧ c ∈ t.plan.serviceOrder

/-- A service car keeps its place in the service order, and one newly selected takes its own. -/
theorem Move.served (m : Move s t) (serves : t.role c = .service)
    (was : s.role c = .service → c ∈ s.plan.serviceOrder) : c ∈ t.plan.serviceOrder := by
  have kept (car : t.car c = s.car c) (plan : t.plan = s.plan) : c ∈ t.plan.serviceOrder := by
    rw [plan]
    exact was (by rw [State.role, ← car]; exact serves)
  cases m with
  | call e rest list =>
    by_cases own : c = e.car
    · rw [State.role, callCar_car, if_pos own] at serves
      split at serves
      · rw [park_car, if_pos rfl] at serves; cases serves
      · cases serves
    · rw [State.role, callCar_car, if_neg own] at serves
      exact callCar_keeps_order own (was serves)
  | endRecall =>
    rw [endRecall_plan]
    exact was (by rw [State.role, ← endRecall_car]; exact serves)
  | drop d r => rw [dropEntry_plan]; exact was ((dropEntry_role d c r s).symm.trans serves)
  | deselect d =>
    rw [State.role, deselect_car] at serves
    rw [deselect_plan]
    split at serves
    · cases serves
    · rename_i other
      exact List.mem_filter.2 ⟨was serves, by simpa using other⟩
  | land d =>
    obtain ⟨b, record⟩ := orderToLand_ordered c d _ _ s
    rw [State.role, record] at serves
    rw [orderToLand_plan]
    exact was serves
  | landReverse d =>
    obtain ⟨b, record⟩ := orderToLand_ordered c d _ _ s
    rw [State.role, record] at serves
    rw [orderToLand_plan]
    exact was serves
  | select d =>
    rw [State.role, selectCar_car] at serves
    rw [selectCar_plan]
    split at serves
    · rename_i same; rw [same]; exact List.mem_append.2 (.inr (List.mem_singleton.2 rfl))
    · exact List.mem_append.2 (.inl (was serves))
  | carGrant d => rw [carGrant_plan]; exact was ((carGrant_role d c s).symm.trans serves)
  | overcommitBegins => exact kept rfl rfl
  | overcommitEnds => exact kept rfl rfl
  | panelGrant => exact kept rfl rfl
  | draw => exact kept rfl rfl

theorem Move.atLanding (m : Move s t) (unlisted : listed s c = false) (unqueued : c ∉ s.queue.entries)
    (h : s.AtLanding c) : t.AtLanding c := by
  have order : s.role c = .service → c ∈ s.plan.serviceOrder := fun serves => by
    rcases h with ⟨parked, -⟩ | ⟨-, on⟩
    · rw [parked] at serves; cases serves
    · exact on
  suffices record : t.role c = .parked ∧ (t.car c).powered = false ∨ t.role c = .service by
    rcases record with parked | serves
    · exact .inl parked
    · exact .inr ⟨serves, m.served serves order⟩
  have stays : s.role c = .parked ∧ (s.car c).powered = false ∨ s.role c = .service :=
    h.imp id And.left
  have record := m.record c
  show (t.car c).role = .parked ∧ _ ∨ (t.car c).role = .service
  generalize t.car c = r at record
  cases record with
  | called some => exact absurd (listed_iff.2 some) (by rw [unlisted]; decide)
  | parked some => exact absurd (listed_iff.2 some) (by rw [unlisted]; decide)
  | deselected => exact .inl ⟨rfl, rfl⟩
  | selected => exact .inr rfl
  | granted allowed queued => exact absurd queued unqueued
  | _ => exact stays

/-! ## A car elsewhere -/

/-- The car waits in the recall list in this tier, or has been called since. -/
def State.Enlisted (t : State) (c : CarIx) (tier : Nat) : Prop :=
  t.role c = .held ∧ ⟨c, tier⟩ ∈ t.plan.recallList ∨
    t.role c = .recall ∧ (t.car c).slotStart = some t.now ∧ (t.car c).recallTimer.isSome = true

/-- What of a record says whether and when its car was called. -/
def CarRecord.call (r : CarRecord) : Role × Option Nat × Timer := (r.role, r.slotStart, r.recallTimer)

theorem State.Enlisted.of_same {tier : Nat} (h : s.Enlisted c tier)
    (call : (t.car c).call = (s.car c).call) (now : t.now = s.now)
    (list : (⟨c, tier⟩ : RecallEntry) ∈ s.plan.recallList → ⟨c, tier⟩ ∈ t.plan.recallList) :
    t.Enlisted c tier := by
  obtain ⟨role, rest⟩ := Prod.mk.inj call
  obtain ⟨slot, timer⟩ := Prod.mk.inj rest
  rcases h with ⟨held, on⟩ | ⟨called, since, runs⟩
  · exact .inl ⟨role.trans held, list on⟩
  · exact .inr ⟨role.trans called, by rw [slot, now]; exact since, by rw [timer]; exact runs⟩

theorem callCar_enlisted (away : (s.car c).position ≠ .atRecall) (tier : Nat) :
    (callCar c s).Enlisted c tier := by
  refine .inr ?_
  rw [State.role, callCar_car, if_pos rfl, if_neg away, (callCar_only (.refl s) c).now]
  exact ⟨rfl, rfl, rfl⟩

theorem dropEntry_call (c d : CarIx) (r : DropReason) (s : State) :
    ((dropEntry d r s).car c).call = (s.car c).call := by
  rw [dropEntry_car]
  split
  · rename_i same; rw [same.1]; rfl
  · rfl

theorem carGrant_call (c d : CarIx) (s : State) : ((carGrant d s).car c).call = (s.car c).call := by
  rw [carGrant_car]
  split
  · rename_i same; rw [same]; rfl
  · rfl

theorem Move.enlisted {tier : Nat} (m : Move s t) (away : (s.car c).position ≠ .atRecall)
    (h : s.Enlisted c tier) : t.Enlisted c tier := by
  have now := m.only.now
  have car (same : t.car c = s.car c)
      (list : (⟨c, tier⟩ : RecallEntry) ∈ s.plan.recallList → ⟨c, tier⟩ ∈ t.plan.recallList) :
      t.Enlisted c tier :=
    h.of_same (by rw [same]) now list
  have waits : s.role c ≠ .service ∧ s.role c ≠ .parked := by
    rcases h with ⟨e, -⟩ | ⟨e, -⟩ <;> rw [e] <;> exact ⟨by decide, by decide⟩
  cases m with
  | call e rest list =>
    by_cases own : c = e.car
    · rw [own] at away ⊢
      exact callCar_enlisted (s := { s with plan := { s.plan with recallList := rest } }) away tier
    · refine car ((callCar_car _ _ _).trans (if_neg own)) fun on => callCar_keeps_entry own ?_
      rw [list] at on
      exact (List.mem_cons.1 on).resolve_left fun same => own (by rw [← same])
  | endRecall => exact car (endRecall_car s c) (by rw [endRecall_plan]; exact id)
  | drop d r => exact h.of_same (dropEntry_call c d r s) now (by rw [dropEntry_plan]; exact id)
  | deselect d f holds victim =>
    have other : c ≠ d := fun same => waits.1 (by rw [same]; exact (idleVictim_some victim).1.1)
    refine car (by rw [deselect_car, if_neg other]) fun on => ?_
    rw [deselect_plan]
    exact List.mem_filter.2 ⟨on, by simpa using other⟩
  | land d =>
    obtain ⟨b, record⟩ := orderToLand_ordered c d _ _ s
    exact h.of_same (by rw [record]; rfl) now (by rw [orderToLand_plan]; exact id)
  | landReverse d =>
    obtain ⟨b, record⟩ := orderToLand_ordered c d _ _ s
    exact h.of_same (by rw [record]; rfl) now (by rw [orderToLand_plan]; exact id)
  | select d allowed can =>
    simp only [canSelect, Bool.and_eq_true, beq_iff_eq] at can
    have other : c ≠ d := fun same => waits.2 (by rw [same]; exact can.1.1.1)
    exact car (by rw [selectCar_car, if_neg other]) (by rw [selectCar_plan]; exact id)
  | carGrant d => exact h.of_same (carGrant_call c d s) now (by rw [carGrant_plan]; exact id)
  | overcommitBegins => exact car rfl id
  | overcommitEnds => exact car rfl id
  | panelGrant => exact car rfl id
  | draw => exact car rfl id

/-! ## A car taken into the plan -/

/-- A car taken into the plan, and out of the queue. -/
structure State.Placed (t : State) (c : CarIx) : Prop where
  joined : t.Joined c
  unqueued : c ∉ t.queue.entries

theorem State.joined_of_landing (landed : (t.car c).position = .atRecall) :
    t.Joined c ↔ listed t c = false ∧ t.AtLanding c := by
  unfold State.Joined
  rw [if_pos landed]
  rfl

theorem State.joined_of_away (away : (t.car c).position ≠ .atRecall) :
    t.Joined c ↔ t.Enlisted c (t.car c).tierNow := by
  unfold State.Joined
  rw [if_neg away]
  rfl

theorem Move.placed (m : Move s t) (h : s.Placed c) : t.Placed c := by
  have position : (t.car c).position = (s.car c).position := congrArg CarInputs.position (m.only.cars c)
  have occupied : (t.car c).occupied = (s.car c).occupied := congrArg CarInputs.occupied (m.only.cars c)
  have tier : (t.car c).tierNow = (s.car c).tierNow := by
    rw [CarRecord.tierNow, CarRecord.tierNow, position, occupied]
  obtain ⟨joined, unqueued⟩ := h
  refine ⟨?_, m.unqueued unqueued⟩
  by_cases landed : (s.car c).position = .atRecall
  · obtain ⟨unlisted, at_⟩ := (State.joined_of_landing landed).1 joined
    exact (State.joined_of_landing (position.trans landed)).2
      ⟨m.unlisted unlisted, m.atLanding unlisted unqueued at_⟩
  · rw [State.joined_of_away (by rw [position]; exact landed), tier]
    exact m.enlisted landed ((State.joined_of_away landed).1 joined)

theorem Moves.placed (m : Moves s t) (h : s.Placed c) : t.Placed c :=
  Moves.keeps (P := fun u => u.Placed c) (fun _ _ hu k => k.placed hu) m h

/-- A HELD car joins the plan: PARKED at its landing, else listed in the tier of its status (R105, R106). -/
theorem joinPlan_placed (held : s.role c = .held) (unqueued : c ∉ s.queue.entries) :
    (joinPlan c s).Placed c := by
  unfold joinPlan
  split
  · rename_i landed
    have record : (park c s).car c = { s.car c with
        powered := false, role := .parked, recallTimer := none, slotStart := none } := by
      rw [park_car, if_pos rfl]
    refine ⟨(State.joined_of_landing (by rw [record]; exact landed)).2 ⟨not_listed_iff.2 ?_, .inl ?_⟩, unqueued⟩
    · exact not_listed_filter c s.plan.recallList
    · rw [State.role, record]; exact ⟨rfl, rfl⟩
  · rename_i away
    refine ⟨(State.joined_of_away (t := insertRecall c s) away).2 (.inl ⟨held, ?_⟩), unqueued⟩
    refine (insertBy_perm _ _ _).symm.subset (List.mem_cons.2 (.inl ?_))
    rw [tierOf_eq]
    rfl

/-! ## The hand-back -/

/-- A car handed back: taken into the plan where cars join it, and else HELD and apart (R57). -/
structure State.Returned (joins : Prop) (t : State) (c : CarIx) : Prop where
  placed : joins → t.Placed c
  held : ¬ joins → t.role c = .held ∧ t.Apart c

theorem Moves.returned {joins : Prop} (m : Moves s t) (h : s.Returned joins c) : t.Returned joins c where
  placed joined := m.placed (h.placed joined)
  held other := by
    obtain ⟨held, apart⟩ := h.held other
    obtain ⟨apart', record⟩ := m.leftApart apart
    exact ⟨by rw [State.role, record]; exact held, apart'⟩

/-- The car may join the plan (R57, R106). -/
def State.Joins (s : State) (c : CarIx) : Prop :=
  (s.plan.phase = .recall ∨ s.plan.phase = .service) ∧ (s.car c).recallFailed = false

theorem handBack_returned (held : s.role c = .held) (apart : s.Apart c) :
    (handBack c s).Returned (s.Joins c) c := by
  unfold handBack
  split
  · rename_i joins
    exact ⟨fun _ => (runCalls_moves _).placed (joinPlan_placed held apart.unqueued),
      fun other => absurd joins other⟩
  · rename_i other
    exact ⟨fun joins => absurd joins other, fun _ => ⟨held, apart⟩⟩

theorem State.Returned.handedBack {joins : Prop} (h : t.Returned joins c) (same : s.Joins c ↔ joins) :
    s.HandedBack t c := by
  unfold State.HandedBack
  split
  · rename_i on; exact (h.placed (same.1 on)).joined
  · rename_i other
    obtain ⟨held, apart⟩ := h.held fun on => other (same.2 on)
    exact ⟨held, apart.unlisted⟩

/-- A hand-back leaves the recall-failed flag, the pre-loss role and the effects that await a trip. -/
theorem handBack_flags (c : CarIx) (s : State) :
    ((handBack c s).car c).preLoss = (s.car c).preLoss ∧
    ((handBack c s).car c).recallFailed = (s.car c).recallFailed ∧
    ((handBack c s).car c).pendExcl = (s.car c).pendExcl ∧
    ((handBack c s).car c).pendUnavail = (s.car c).pendUnavail := by
  unfold handBack
  split
  · obtain ⟨preLoss, failed, excl, unavail⟩ := (runCalls_moves (joinPlan c s)).record_flags c
    rw [preLoss, failed, excl, unavail, joinPlan_car, park_car, if_pos rfl]
    split
    · exact ⟨rfl, rfl, rfl, rfl⟩
    · exact ⟨rfl, rfl, rfl, rfl⟩
  · exact ⟨rfl, rfl, rfl, rfl⟩

end Sys2Proof.Machine
end

section
/-!
PROOFS. INCLUDE (R59, R60): a car withdrawn by an exclusion, a car admitted by an inclusion; and O38.
-/

namespace Sys2Proof.Machine

variable {s t : State} {c d : CarIx}

/-! ## Acts on different ports -/

theorem State.updPort_comm (s : State) {p q : Port} (ne : p ≠ q) (f g : PortIf → PortIf) :
    (s.updPort p f).updPort q g = (s.updPort q g).updPort p f := by
  have ix : (portIx p).val ≠ (portIx q).val := fun e => ne (portIx_inj (Fin.ext e))
  simp only [State.updPort, State.port, Vector.getElem_set_ne, ix, ix.symm, ne_eq, not_false_eq_true]
  rw [Vector.set_comm _ _ ix]

/-- The outcome on the panel port is set before or after a notice on a car port. -/
theorem setOutcome_noticeCar (o : ReqOutcome) (s : State) (c : CarIx) (k : CarNotice) :
    setOutcome .panel o (s.noticeCar c k) = (setOutcome .panel o s).noticeCar c k := by
  have on : (setOutcome .panel o s).configured c = s.configured c := rfl
  unfold State.noticeCar
  rw [on]
  split
  · exact State.updPort_comm s (fun k => by cases k) _ _
  · rfl

theorem State.updCar_self (s : State) (c : CarIx) {f : CarRecord → CarRecord}
    (same : f (s.car c) = s.car c) : s.updCar c f = s := by
  unfold State.updCar
  rw [same]
  simp [State.car]

/-! ## A car withdrawn -/

theorem dropEntry_told (on : s.configured c = true) (waits : (s.trip c).state = .waiting) (r : DropReason) :
    (dropEntry c r s).hasNotice (.car c) CarNotice.dropped.number = true := by
  rw [dropEntry, if_pos waits]
  refine State.hasNotice_noticeCar ?_ .dropped
  have store : (removeEntry c s).store = s.store := (removeEntry_only (.refl s) c).store
  rw [State.configured, State.updTrip_store, store]
  exact on

/-- The record of a car withdrawn (R60, R61). -/
def CarRecord.withdrawn (r : CarRecord) : CarRecord :=
  { r.dropped .role with
    powered := false, role := .unavailable, recallTimer := none, slotStart := none, pendExcl := false
    pendUnavail := false, pendDesel := false }

theorem withdrawCar_self (c : CarIx) (s : State) : (withdrawCar c s).car c = (s.car c).withdrawn := by
  rw [withdrawCar_car, if_pos rfl, dropEntry_self]
  rfl

theorem withdrawCar_order (c : CarIx) (s : State) : c ∉ (withdrawCar c s).plan.serviceOrder := by
  show c ∉ (dropEntry c .role s).plan.serviceOrder.filter fun d => d != c
  simp

theorem withdrawCar_apart (waits : c ∈ s.queue.entries → (s.trip c).state = .waiting) :
    (withdrawCar c s).Apart c where
  role := by
    have role : (withdrawCar c s).role c = .unavailable := by rw [State.role, withdrawCar_self]; rfl
    rw [role]
    exact ⟨by decide, by decide⟩
  idle := by rw [State.trip, withdrawCar_self]; exact CarRecord.dropped_idle _ .role
  unqueued := dropEntry_unqueued waits .role
  unlisted := not_listed_iff.2 (not_listed_filter c (dropEntry c .role s).plan.recallList)

/-- A car withdrawn from `s` by an event that led to `t`. -/
structure State.Withdrawn (s t : State) (c : CarIx) : Prop where
  role : t.role c = .unavailable
  unpowered : (t.car c).powered = false
  idle : (t.trip c).state = .none
  unlisted : listed t c = false
  unqueued : c ∉ t.queue.entries
  unserved : c ∉ t.plan.serviceOrder
  slot : (t.car c).slotStart = none
  timer : (t.car c).recallTimer = none
  dropped : (s.trip c).state = .waiting → (t.trip c).verdict = .dropped .role

theorem withdrawCar_withdrawn (waits : c ∈ s.queue.entries → (s.trip c).state = .waiting)
    (still : (s.trip c).state.still = true) : s.Withdrawn (withdrawCar c s) c := by
  have record := withdrawCar_self c s
  have idle : ((s.car c).dropped .role).trip.state = .none := by
    rw [CarRecord.dropped_state]
    split
    · rfl
    · rename_i other
      show (s.trip c).state = .none
      have other : (s.trip c).state ≠ .waiting := other
      revert still other
      cases (s.trip c).state <;> simp [TripState.still, TripState.moving]
  obtain ⟨-, -, unqueued, unlisted⟩ := withdrawCar_apart waits
  refine ⟨?_, ?_, ?_, unlisted, unqueued, withdrawCar_order c s, ?_, ?_, fun waiting => ?_⟩
  · rw [State.role, record]; rfl
  · rw [record]; rfl
  · rw [State.trip, record]; exact idle
  · rw [record]; rfl
  · rw [record]; rfl
  · rw [State.trip, record]
    exact CarRecord.dropped_verdict waiting .role

theorem State.Withdrawn.apart (h : s.Withdrawn t c) : t.Apart c :=
  ⟨by rw [h.role]; exact ⟨by decide, by decide⟩, by rw [h.idle]; decide, h.unqueued, h.unlisted⟩

/-- No move of the event's end takes a withdrawn car back. -/
theorem Moves.withdrawn {u : State} (m : Moves t u) (h : s.Withdrawn t c) : s.Withdrawn u c := by
  obtain ⟨apart, record⟩ := m.leftApart h.apart
  refine ⟨?_, ?_, ?_, apart.unlisted, apart.unqueued, m.unserved h.apart h.unserved, ?_, ?_, fun waiting => ?_⟩
  · rw [State.role, record]; exact h.role
  · rw [record]; exact h.unpowered
  · rw [State.trip, record]; exact h.idle
  · rw [record]; exact h.slot
  · rw [record]; exact h.timer
  · rw [State.trip, record]; exact h.dropped waiting

theorem withdrawCar_flags (c : CarIx) (s : State) : ((withdrawCar c s).car c).pendExcl = false ∧
    ((withdrawCar c s).car c).pendUnavail = false ∧ ((withdrawCar c s).car c).pendDesel = false := by
  rw [withdrawCar_self]; exact ⟨rfl, rfl, rfl⟩

/-- In role HELD and PARKED no trip is kept (R28, R83). -/
theorem State.Consistent.idle (h : s.Consistent)
    (aside : s.role c = .held ∨ s.role c = .parked ∨ s.role c = .unavailable) :
    (s.trip c).state = .none := by
  have off (role : s.role c = .recall ∨ s.role c = .service ∨ s.role c = .lost) : False := by
    rcases aside with e | e | e <;> rw [e] at role <;> simp at role
  cases state : (s.trip c).state with
  | none => rfl
  | waiting => exact (off ((h.waitingRole c state).imp_right .inl)).elim
  | starting => exact (off (h.chargedRole c (.inr (by rw [state]; rfl)))).elim
  | running => exact (off (h.chargedRole c (.inr (by rw [state]; rfl)))).elim

/-! ## Exclusion -/

/-- The car's included flag goes and the car is told (R60). -/
def State.flagged (s : State) (c : CarIx) : State :=
  (s.updCar c fun r => { r with included := false }).noticeCar c .excluded

theorem State.flagged_car (s : State) (c : CarIx) :
    (s.flagged c).car c = { s.car c with included := false } := by
  rw [State.flagged, State.noticeCar_car, State.updCar_car_same]

theorem State.flagged_role (s : State) (c : CarIx) : (s.flagged c).role c = s.role c := by
  rw [State.role, s.flagged_car]; rfl

theorem State.flagged_trip (s : State) (c : CarIx) : (s.flagged c).trip c = s.trip c := by
  rw [State.trip, s.flagged_car]; rfl

theorem State.flagged_queue (s : State) (c : CarIx) : (s.flagged c).queue = s.queue := by
  rw [State.flagged, State.noticeCar_queue]; rfl

theorem State.flagged_plan (s : State) (c : CarIx) : (s.flagged c).plan = s.plan := by
  rw [State.flagged, State.noticeCar_plan]; rfl

theorem State.flagged_unread (s : State) (c : CarIx) : s.Unread (s.flagged c) :=
  (State.Unread.updCar s c ⟨rfl, rfl, rfl, rfl⟩).trans (.noticeCar _ c .excluded)

theorem State.flagged_told (on : s.configured c = true) :
    (s.flagged c).hasNotice (.car c) CarNotice.excluded.number = true :=
  State.hasNotice_noticeCar (s := s.updCar c fun r => { r with included := false }) on .excluded

theorem State.flagged_configured (s : State) (c : CarIx) : (s.flagged c).configured c = s.configured c :=
  State.configured_of_store ((OnlyDecisions.noticeCar _ c .excluded).store) c

theorem excludeCar_included (on : (s.car c).included = true) :
    excludeCar c s = applyExclusion c (s.flagged c) := if_pos on

/-- An exclusion withdraws a HELD or PARKED car at once, and an idle one in role RECALL or SERVICE (R60). -/
theorem applyExclusion_idle (idle : s.role c = .held ∨ s.role c = .parked ∨
    (s.role c = .recall ∨ s.role c = .service) ∧ (s.trip c).state.still = true) :
    applyExclusion c s = withdrawCar c s := by
  unfold applyExclusion
  rcases idle with e | e | ⟨e | e, still⟩
  · rw [e]
  · rw [e]
  · rw [e]; exact if_pos still
  · rw [e]; exact if_pos still

/-- It waits for the end of a trip in motion, and for the return of a car LOST in a generator phase (R60). -/
theorem applyExclusion_busy
    (busy : (s.role c = .recall ∨ s.role c = .service) ∧ ¬ (s.trip c).state.still = true ∨
      s.role c = .lost ∧ s.plan.phase.generator = true) :
    applyExclusion c s = s.updCar c fun r => { r with pendExcl := true } := by
  unfold applyExclusion
  rcases busy with ⟨e | e, moves⟩ | ⟨e, running⟩
  · rw [e]; exact if_neg moves
  · rw [e]; exact if_neg moves
  · rw [e]; exact if_pos running

/-- On any other car it is the flag alone (R60). -/
theorem applyExclusion_rest (rest : s.role c = .free ∨ s.role c = .unavailable ∨
    s.role c = .lost ∧ ¬ (s.role c = .lost ∧ s.plan.phase.generator = true)) : applyExclusion c s = s := by
  unfold applyExclusion
  rcases rest with e | e | ⟨e, mains⟩
  · rw [e]
  · rw [e]
  · rw [e]; exact if_neg fun running => mains ⟨e, running⟩

/-! ## Inclusion -/

/-- The record of a car included (R59). -/
def State.admitted (s : State) (c : CarIx) : State :=
  s.updCar c fun r => { r with included := true, recallFailed := false, pendExcl := false }

theorem State.admitted_car (s : State) (c : CarIx) : (s.admitted c).car c =
    { s.car c with included := true, recallFailed := false, pendExcl := false } := State.updCar_car_same ..

/-- An inclusion hands the car back (R59). -/
def CarRecord.comesBack (r : CarRecord) : Prop :=
  r.role = .unavailable ∧ r.link = .up ∧ r.available = true ∨ r.role = .held ∧ r.recallFailed = true

/-- The car that an inclusion hands back is HELD and apart. -/
theorem admitCar_back (h : s.Consistent) (back : (s.car c).comesBack) :
    ∃ y, admitCar c s = handBack c y ∧ y.role c = .held ∧ y.Apart c ∧ y.plan = s.plan ∧
      (y.car c).recallFailed = false := by
  have aside : s.role c = .held ∨ s.role c = .parked ∨ s.role c = .unavailable :=
    back.elim (fun k => .inr (.inr k.1)) fun k => .inl k.1
  have idle := h.idle aside
  have unqueued : c ∉ s.queue.entries := fun queued => by
    rw [(h.queueExact c).1 queued] at idle; cases idle
  have unlisted : listed s c = false := not_listed_iff.2 fun e he own => by
    obtain ⟨held, failed⟩ := h.listHeld e he
    rw [own] at held failed
    rcases back with ⟨role, -⟩ | ⟨-, some⟩
    · rw [State.role, role] at held; cases held
    · rw [some] at failed; cases failed
  have apart {y : State} (role : y.role c = .held) (trip : y.trip c = s.trip c) (queue : y.queue = s.queue)
      (plan : y.plan = s.plan) : y.Apart c :=
    ⟨by rw [role]; exact ⟨by decide, by decide⟩, by rw [trip, idle]; decide, by rw [queue]; exact unqueued,
      by rw [listed, plan]; exact unlisted⟩
  have record := s.admitted_car c
  have trip : (s.admitted c).trip c = s.trip c := by rw [State.trip, record]; rfl
  have role : (s.admitted c).role c = s.role c := by rw [State.role, record]; rfl
  by_cases out : s.role c = .unavailable ∧ (s.car c).link = .up ∧ (s.car c).available = true
  · have made : admitCar c s = handBack c ((s.admitted c).updCar c fun r => { r with role := .held }) :=
      if_pos (by rw [← State.admitted, role, record]; exact out)
    have own : ((s.admitted c).updCar c fun r => { r with role := .held }).role c = .held := by
      rw [State.role, State.updCar_car_same]
    refine ⟨_, made, own, apart own ?_ rfl rfl, rfl, ?_⟩
    · rw [State.trip, State.updCar_car_same, record]; rfl
    · rw [State.updCar_car_same, record]
  · obtain ⟨held, failed⟩ : s.role c = .held ∧ (s.car c).recallFailed = true :=
      back.resolve_left out
    have made : admitCar c s = handBack c (s.admitted c) := by
      refine (if_neg ?_).trans (if_pos ?_)
      · rw [← State.admitted, role, held]; exact fun k => by cases k.1
      · rw [← State.admitted, role]; exact ⟨held, failed⟩
    exact ⟨_, made, role.trans held, apart (role.trans held) trip rfl rfl, rfl, by rw [record]⟩

theorem admitCar_rest (stays : ¬ (s.car c).comesBack) : admitCar c s = s.admitted c := by
  have record := s.admitted_car c
  have role : (s.admitted c).role c = s.role c := by rw [State.role, record]; rfl
  refine (if_neg ?_).trans (if_neg ?_)
  · rw [← State.admitted, role, record]; exact fun k => stays (.inl k)
  · rw [← State.admitted, role]; exact fun k => stays (.inr k)

theorem admitCar_only (c : CarIx) (s : State) : OnlyDecisions
    (s.updCar c fun r => { r with included := true }) (admitCar c s) := by
  have admitted : OnlyDecisions (s.updCar c fun r => { r with included := true }) (s.admitted c) := by
    have two : s.admitted c = (s.updCar c fun r => { r with included := true }).updCar c fun r =>
        { r with recallFailed := false, pendExcl := false } := by
      rw [State.updCar_updCar]; rfl
    rw [two]
    exact .updCar _ c _ (fun _ => by rfl) fun _ => by rfl
  unfold admitCar
  rw [← State.admitted]
  extract_lets y
  have admitted : OnlyDecisions (s.updCar c fun r => { r with included := true }) y := admitted
  split
  · exact handBack_only (admitted.thenUpdCar (fun _ => by rfl) fun _ => by rfl) c
  · split
    · exact handBack_only admitted c
    · exact admitted

theorem admitCar_flags (c : CarIx) (s : State) :
    ((admitCar c s).car c).recallFailed = false ∧ ((admitCar c s).car c).pendExcl = false := by
  have record := s.admitted_car c
  have back (y : State) (own : (y.car c).recallFailed = false ∧ (y.car c).pendExcl = false) :
      ((handBack c y).car c).recallFailed = false ∧ ((handBack c y).car c).pendExcl = false := by
    obtain ⟨-, failed, excl, -⟩ := handBack_flags c y
    rw [failed, excl]; exact own
  unfold admitCar
  rw [← State.admitted]
  dsimp only
  split
  · exact back _ (by rw [State.updCar_car_same, record]; exact ⟨rfl, rfl⟩)
  · split
    · exact back _ (by rw [record]; exact ⟨rfl, rfl⟩)
    · rw [record]; exact ⟨rfl, rfl⟩

/-! ## The statement -/

theorem exec_includeCar (h : ignores s .panel = false) (ix code : Byte) :
    exec (.includeCar (.opened [ix, code])) s = .next (setOutcome .panel
      (closing {} (takeInclude ix code) (reserveStart s)).2
      (closing {} (takeInclude ix code) (reserveStart s)).1) :=
  congrArg Host.Outcome.next (arrive_two (r := .includeCar) h (by decide) (by decide) (by decide) (by decide)
    (fun _ => rfl) fun _ => rfl)

theorem takeInclude_named {ix code : Byte} (named : carIxOf ix = some c) (on : s.configured c = true) :
    takeInclude ix code s =
      (if code = excludeCode then excludeCar c s else admitCar c s, .accepted) := by
  unfold takeInclude
  rw [named]
  dsimp only
  rw [if_neg (by rw [on]; decide)]
  split
  · rfl
  · rfl

/-- The INCLUDE of a car, its answer recorded. -/
def includeEnd (s : State) (c : CarIx) (code : Byte) : State :=
  setOutcome .panel .accepted (closeEvent {} (reserveStart s)
    (if code = excludeCode then excludeCar c (reserveStart s) else admitCar c (reserveStart s)))

theorem exec_includeCar_named (h : ignores s .panel = false) {ix code : Byte} (named : carIxOf ix = some c)
    (on : s.configured c = true) :
    exec (.includeCar (.opened [ix, code])) s = .next (includeEnd s c code) := by
  rw [exec_includeCar h]
  have taken := takeInclude_named (s := reserveStart s) (code := code) named on
  rw [closing, taken]
  rfl

/-- The base of the statement, from the panel's act on. -/
theorem includeEnd_only (s : State) (c : CarIx) (code : Byte) :
    OnlyDecisions ((panelAnswered .accepted s).updCar c
      fun r => { r with included := decide (code ≠ 0x5A) }) (includeEnd s c code) := by
  have acted : OnlyDecisions ((reserveStart s).updCar c fun r => { r with included := decide (code ≠ 0x5A) })
      (if code = excludeCode then excludeCar c (reserveStart s) else admitCar c (reserveStart s)) := by
    by_cases excludes : code = 0x5A
    · rw [if_pos (show code = excludeCode from excludes)]
      simp only [excludes, ne_eq, not_true_eq_false, decide_false]
      cases on : ((reserveStart s).car c).included
      · have same : (reserveStart s).updCar c (fun r => { r with included := false }) = reserveStart s :=
          State.updCar_self _ c (by rw [← on])
        rw [same, excludeCar, if_neg (by rw [on]; decide)]
        exact .refl _
      · rw [excludeCar_included on]
        exact applyExclusion_only (.noticeCar _ c .excluded) c
    · rw [if_neg (show ¬ code = excludeCode from excludes)]
      simp only [excludes, ne_eq, not_false_eq_true, decide_true]
      exact admitCar_only c _
  have ended := (acted.trans (closeEvent_only {} (reserveStart s) _)).updPort (setOutcome_act .accepted) .panel
  rw [← reserveStart_answered]
  exact ended

theorem includeEnd_excludes (on : (s.car c).included = true) : includeEnd s c excludeCode =
    setOutcome .panel .accepted
      (closeEvent {} (reserveStart s) (applyExclusion c ((reserveStart s).flagged c))) := by
  rw [includeEnd, if_pos rfl, excludeCar_included (s := reserveStart s) on]

theorem includeEnd_told (configured : s.configured c = true) (on : (s.car c).included = true) :
    (includeEnd s c excludeCode).hasNotice (.car c) CarNotice.excluded.number = true := by
  rw [includeEnd_excludes on, setOutcome, State.hasNotice_updPort _ (setOutcome_act .accepted)]
  exact ((applyExclusion_only (.refl _) c).trans (closeEvent_only {} (reserveStart s) _)).hasNotice
    (State.flagged_told (s := reserveStart s) configured)

theorem includeEnd_withdraws (h : s.Consistent) (configured : s.configured c = true)
    (on : (s.car c).included = true) (idle : s.role c = .held ∨ s.role c = .parked ∨
      (s.role c = .recall ∨ s.role c = .service) ∧ (s.trip c).state.still = true) :
    s.Withdrawn (includeEnd s c excludeCode) c ∧
    (((includeEnd s c excludeCode).car c).pendExcl = false ∧
      ((includeEnd s c excludeCode).car c).pendUnavail = false ∧
      ((includeEnd s c excludeCode).car c).pendDesel = false) ∧ ((s.trip c).state = .waiting →
      (includeEnd s c excludeCode).hasNotice (.car c) CarNotice.dropped.number = true) := by
  have flagged : applyExclusion c ((reserveStart s).flagged c) = withdrawCar c ((reserveStart s).flagged c) :=
    applyExclusion_idle (by rw [State.flagged_role, State.flagged_trip]; exact idle)
  rw [includeEnd_excludes on, flagged]
  have moves := closeEvent_moves {} (reserveStart s) (withdrawCar c ((reserveStart s).flagged c))
  generalize closeEvent {} (reserveStart s) (withdrawCar c ((reserveStart s).flagged c)) = t at moves
  have still : (s.trip c).state.still = true := by
    rcases idle with e | e | ⟨-, still⟩
    · rw [h.idle (.inl e)]; rfl
    · rw [h.idle (.inr (.inl e))]; rfl
    · exact still
  have left := moves.withdrawn (withdrawCar_withdrawn (s := (reserveStart s).flagged c) (c := c)
    (by rw [State.flagged_queue, State.flagged_trip]; exact (h.queueExact c).1)
    (by rw [State.flagged_trip]; exact still))
  obtain ⟨-, -, excl, unavail⟩ := moves.record_flags c
  obtain ⟨excl', unavail', desel⟩ := withdrawCar_flags c ((reserveStart s).flagged c)
  refine ⟨⟨left.role, left.unpowered, left.idle, left.unlisted, left.unqueued, left.unserved, left.slot,
    left.timer, fun waits => left.dropped (by rw [State.flagged_trip]; exact waits)⟩,
    ⟨excl.trans excl', unavail.trans unavail', moves.pendDesel_none desel⟩, fun waits => ?_⟩
  rw [setOutcome, State.hasNotice_updPort _ (setOutcome_act .accepted)]
  refine ((makeUnavailable_only (.refl _) c).trans moves.only).hasNotice (dropEntry_told ?_ ?_ .role)
  · rw [State.flagged_configured]; exact configured
  · rw [State.flagged_trip]; exact waits

theorem reserveStart_settled (h : s.Settled) : (reserveStart s).Settled :=
  h.of_same (.parts rfl rfl rfl rfl rfl) rfl

theorem setOutcome_flagged (o : ReqOutcome) (s : State) (c : CarIx) :
    setOutcome .panel o (s.flagged c) = (setOutcome .panel o s).flagged c := by
  rw [State.flagged, setOutcome_noticeCar]
  rfl

/-- A deferred exclusion, and one that is the flag alone, end with the act itself (R60). -/
theorem includeEnd_marks (settled : s.Settled) (on : (s.car c).included = true) :
    ((s.role c = .recall ∨ s.role c = .service) ∧ ¬ (s.trip c).state.still = true ∨
        s.role c = .lost ∧ s.plan.phase.generator = true →
      includeEnd s c excludeCode = ((panelAnswered .accepted s).flagged c).updCar c
        fun r => { r with pendExcl := true }) ∧
    (s.role c = .free ∨ s.role c = .unavailable ∨
        s.role c = .lost ∧ ¬ (s.role c = .lost ∧ s.plan.phase.generator = true) →
      includeEnd s c excludeCode = (panelAnswered .accepted s).flagged c) := by
  have start := reserveStart_settled settled
  have flagged := (reserveStart s).flagged_unread c
  rw [includeEnd_excludes on, ← reserveStart_answered, ← setOutcome_flagged]
  refine ⟨fun busy => ?_, fun rest => ?_⟩
  · have act := applyExclusion_busy (s := (reserveStart s).flagged c) (c := c)
      (by rw [State.flagged_role, State.flagged_trip, State.flagged_plan]; exact busy)
    rw [act, (flagged.trans (.updCar _ c ⟨rfl, rfl, rfl, rfl⟩)).closeEvent start]
    rfl
  · have act := applyExclusion_rest (s := (reserveStart s).flagged c) (c := c)
      (by rw [State.flagged_role, State.flagged_plan]; exact rest)
    rw [act, flagged.closeEvent start]

theorem includeEnd_excluded_already (settled : s.Settled) (off : (s.car c).included = false) :
    includeEnd s c excludeCode = panelAnswered .accepted s := by
  have nothing : excludeCar c (reserveStart s) = reserveStart s :=
    if_neg (show ¬ (s.car c).included = true by rw [off]; decide)
  rw [includeEnd, if_pos rfl, nothing, closeEvent_self (reserveStart_settled settled), reserveStart_answered]

theorem includeEnd_admits {code : Byte} (includes : code ≠ excludeCode) : includeEnd s c code =
    setOutcome .panel .accepted (closeEvent {} (reserveStart s) (admitCar c (reserveStart s))) := by
  rw [includeEnd, if_neg includes]

theorem includeEnd_flags {code : Byte} (includes : code ≠ excludeCode) :
    ((includeEnd s c code).car c).pendExcl = false ∧ ((includeEnd s c code).car c).recallFailed = false := by
  rw [includeEnd_admits includes]
  obtain ⟨-, failed, excl, -⟩ :=
    (closeEvent_moves {} (reserveStart s) (admitCar c (reserveStart s))).record_flags c
  obtain ⟨failed', excl'⟩ := admitCar_flags c (reserveStart s)
  exact ⟨excl.trans excl', failed.trans failed'⟩

theorem includeEnd_handsBack (h : s.Consistent) {code : Byte} (includes : code ≠ excludeCode)
    (back : (s.car c).comesBack) :
    (s.updCar c fun r => { r with recallFailed := false }).HandedBack (includeEnd s c code) c := by
  obtain ⟨y, made, held, apart, plan, failed⟩ := admitCar_back (reserveStart_consistent h) back
  rw [includeEnd_admits includes, made]
  have moves := closeEvent_moves {} (reserveStart s) (handBack c y)
  have same : (s.updCar c fun r => { r with recallFailed := false }).Joins c ↔ y.Joins c := by
    rw [State.Joins, State.Joins, State.updCar_car_same, plan, failed]
    rfl
  have left := (moves.returned (handBack_returned held apart)).handedBack same
  exact left

theorem includeEnd_stays (settled : s.Settled) {code : Byte} (includes : code ≠ excludeCode)
    (stays : ¬ (s.car c).comesBack) : includeEnd s c code = (panelAnswered .accepted s).admitted c := by
  have act : admitCar c (reserveStart s) = (reserveStart s).admitted c := admitCar_rest stays
  rw [includeEnd_admits includes, act, ← reserveStart_answered]
  have unread : (reserveStart s).Unread ((reserveStart s).admitted c) :=
    .updCar _ c ⟨rfl, rfl, rfl, rfl⟩
  rw [unread.closeEvent (reserveStart_settled settled)]
  rfl

/-- Settles O38: the code picks exclusion or inclusion, and each clause is one of their cases. -/
theorem includeCompletes : Obligations.IncludeCompletes := by
  unfold Obligations.IncludeCompletes
  intro s ix code h
  refine ⟨fun above settled => ?_, fun index => ⟨fun off settled => ?_, fun on =>
    ⟨_, exec_includeCar_named h (dif_pos index) on, includeEnd_only s _ code, fun excludes included => ?_,
      fun excludes already settled => ?_, fun includes => ?_⟩⟩⟩
  · rw [exec_includeCar h, closing_refused settled]
    unfold takeInclude
    rw [show carIxOf ix = none from dif_neg (by omega)]
  · rw [exec_includeCar h, closing_refused settled]
    unfold takeInclude
    rw [show carIxOf ix = some ⟨ix.toNat, index⟩ from dif_pos index]
    exact if_pos off
  · subst excludes
    refine ⟨includeEnd_told on included, fun consistent idle => ?_, fun settled => includeEnd_marks settled included⟩
    obtain ⟨left, ⟨excl, unavail, desel⟩, told⟩ := includeEnd_withdraws consistent on included idle
    exact ⟨left.role, left.unpowered, left.idle, left.unlisted, left.unqueued, left.unserved, left.slot,
      left.timer, excl, unavail, desel, fun waits => ⟨left.dropped waits, told waits⟩⟩
  · subst excludes
    exact includeEnd_excluded_already settled already
  · obtain ⟨excl, failed⟩ := includeEnd_flags (s := s) (c := ⟨ix.toNat, index⟩) includes
    exact ⟨excl, failed, fun back consistent _ _ => includeEnd_handsBack consistent includes back,
      fun stays settled => includeEnd_stays settled includes stays⟩

end Sys2Proof.Machine
end

section
/-!
PROOFS. The stages of a STATE on one car (R47 to R49, R54, R55, R57, R61, R108): the state that a STATE finds, what
each stage does to a car by its role and trip, and what the stages and the moves keep of its trip.
-/

namespace Sys2Proof.Machine

variable {s t y z : State} {c d : CarIx}

/-! ## The state a STATE finds -/

/-- The lists, roles and trips agree as they did, where none of them has moved. -/
theorem State.Consistent.of_same (h : s.Consistent) (queue : t.queue = s.queue) (gate : t.gate = s.gate)
    (plan : t.plan = s.plan) (cars : ∀ d, t.role d = s.role d ∧ t.trip d = s.trip d ∧
      (t.car d).powered = (s.car d).powered ∧ (t.car d).preLoss = (s.car d).preLoss ∧
      (t.car d).recallFailed = (s.car d).recallFailed) : t.Consistent := by
  have role d := (cars d).1
  have trip d := (cars d).2.1
  have power d := (cars d).2.2.1
  have preLoss d := (cars d).2.2.2.1
  have failed d := (cars d).2.2.2.2
  have charge d : t.mayCharge d ↔ s.mayCharge d := by rw [State.mayCharge, power, trip]
  constructor
  · rw [queue]; exact h.queueNodup
  · intro d; rw [queue, trip]; exact h.queueExact d
  · rw [gate]; exact h.stackNodup
  · intro d; rw [gate, trip]; exact h.stackExact d
  · intro d; rw [trip, role]; exact h.waitingRole d
  · rw [plan]; exact h.listNodup
  · intro e; rw [plan, role, failed]; exact h.listHeld e
  · intro d; rw [charge, role]; exact h.chargedRole d
  · intro d; rw [charge, role, preLoss]; exact h.chargedLost d
  · rw [plan]; intro off
    exact ⟨(h.quiet off).1, fun d => by rw [trip, power]; exact (h.quiet off).2 d⟩
  · rw [gate, plan]; exact h.closed
  · rw [gate]
    exact ⟨fun k => (by obtain ⟨d, own, starts⟩ := h.holder.1 k; exact ⟨d, own, by rw [trip]; exact starts⟩),
      h.holder.2⟩
  · rw [gate]; exact h.windows
  · rw [gate]; exact h.held
  · rw [gate]; exact h.oneClaim
  · rw [gate]; exact h.closedClaims

/-- The state on which a STATE's stages run: the request taken, the link UP, the status recorded. -/
def statusStart (s : State) (c : CarIx) (u : Byte) : State := recordStatus c u (requestStart (.car c) s)

/-- The record as the stages find it. -/
def CarRecord.reported (r : CarRecord) (u : Byte) (timer : Timer) : CarRecord :=
  { r with
    link := .up, linkTimer := timer, position := positionOf u, occupied := occupiedOf u
    available := availableOf u, motion := motionOf u }

theorem statusStart_car (running : s.plan.phase.generator = true) (c : CarIx) (u : Byte) :
    (statusStart s c u).car c = (s.car c).reported u (s.startTimer (tLink s.store.active)) := by
  have linked : (requestStart (.car c) s).car c =
      { s.car c with link := .up, linkTimer := s.startTimer (tLink s.store.active) } := by
    have on : (s.updPort (.car c) (.opened none none)).plan.phase.generator = true := running
    show (carLinkUp c (s.updPort (.car c) (.opened none none))).car c = _
    rw [carLinkUp, State.updCar_car_same, on]
    exact if_neg fun k => by cases k.2
  rw [statusStart, recordStatus, State.updCar_car_same, linked]
  rfl

theorem statusStart_car_ne (ne : d ≠ c) (u : Byte) : (statusStart s c u).car d = s.car d := by
  rw [statusStart, recordStatus, State.updCar_car_ne _ _ ne]
  show (carLinkUp c (s.updPort (.car c) (.opened none none))).car d = _
  rw [carLinkUp, State.updCar_car_ne _ _ ne]
  rfl

theorem statusStart_consistent (h : s.Consistent) (running : s.plan.phase.generator = true) (c : CarIx)
    (u : Byte) : (statusStart s c u).Consistent := by
  refine h.of_same rfl rfl rfl fun d => ?_
  by_cases same : d = c
  · subst same
    rw [State.role, State.trip, statusStart_car running]
    exact ⟨rfl, rfl, rfl, rfl, rfl⟩
  · rw [State.role, State.trip, statusStart_car_ne same]
    exact ⟨rfl, rfl, rfl, rfl, rfl⟩

/-! ## States that differ in a pending unavailability and the ports -/

/-- From `z` to `y` nothing moved but car c's pending unavailability, and ports. -/
structure State.Touched (z y : State) (c : CarIx) : Prop where
  record : y.car c = { z.car c with pendUnavail := (y.car c).pendUnavail }
  queue : y.queue = z.queue
  gate : y.gate = z.gate
  plan : y.plan = z.plan
  shed : y.shed = z.shed
  now : y.now = z.now

namespace State.Touched

theorem refl (z : State) (c : CarIx) : z.Touched z c := ⟨rfl, rfl, rfl, rfl, rfl, rfl⟩

theorem trans {x : State} (h : x.Touched y c) (k : y.Touched z c) : x.Touched z c where
  record := by rw [k.record, h.record]
  queue := k.queue.trans h.queue
  gate := k.gate.trans h.gate
  plan := k.plan.trans h.plan
  shed := k.shed.trans h.shed
  now := k.now.trans h.now

theorem updCar (z : State) (c : CarIx) (b : Bool) :
    z.Touched (z.updCar c fun r => { r with pendUnavail := b }) c :=
  ⟨by rw [State.updCar_car_same], rfl, rfl, rfl, rfl, rfl⟩

theorem role (h : z.Touched y c) : y.role c = z.role c := by rw [State.role, h.record]; rfl

theorem trip (h : z.Touched y c) : y.trip c = z.trip c := by rw [State.trip, h.record]; rfl

theorem listed (h : z.Touched y c) : listed y c = listed z c := by rw [Machine.listed, h.plan]; rfl

theorem apart (h : z.Touched y c) (k : z.Apart c) : y.Apart c :=
  ⟨by rw [h.role]; exact k.role, by rw [h.trip]; exact k.idle, by rw [h.queue]; exact k.unqueued,
    by rw [h.listed]; exact k.unlisted⟩

theorem quit (h : z.Touched y c) (k : z.Quit c) : y.Quit c :=
  ⟨by rw [h.trip]; exact k.idle, by rw [h.queue]; exact k.unqueued, by rw [h.gate]; exact k.unstacked,
    by rw [h.gate]; exact k.unheld, by rw [h.shed]; exact k.spared⟩

theorem placed (h : z.Touched y c) (k : z.Placed c) : y.Placed c := by
  refine ⟨?_, by rw [h.queue]; exact k.unqueued⟩
  have joined := k.joined
  unfold State.Joined at joined ⊢
  rw [h.listed, h.role, h.plan, h.now, h.record]
  exact joined

theorem returned {joins : Prop} (h : z.Touched y c) (k : z.Returned joins c) : y.Returned joins c where
  placed on := h.placed (k.placed on)
  held off := ⟨h.role.trans (k.held off).1, h.apart (k.held off).2⟩

end State.Touched

/-! ## Stages 2 to 4 -/

/-- Stages 2 to 4 of a STATE (R48). -/
def takeRest (c : CarIx) (s : State) : State := parkingCheck c (motionCheck c (availabilityRules c s))

theorem takeState_eq (c : CarIx) (u : Byte) (s : State) :
    takeState c u s = takeRest c (resolveReturn c (recordStatus c u s)) := rfl

theorem motionCheck_touched (c : CarIx) (z : State) : z.Touched (motionCheck c z) c := by
  unfold motionCheck
  split
  · exact ⟨rfl, rfl, rfl, rfl, rfl, rfl⟩
  · exact .refl z c

/-- The parking check leaves a car that is not an idle recall car, and one away from its landing (R108). -/
def State.StaysParked (z : State) (c : CarIx) : Prop :=
  z.role c ≠ .recall ∨ (z.trip c).state ≠ .none ∨
    (z.plan.phase = .recall ∨ z.plan.phase = .service) ∧ (z.car c).position ≠ .atRecall

theorem parkingCheck_stays (stays : z.StaysParked c) : parkingCheck c z = z := by
  unfold parkingCheck
  split
  · rename_i idle
    rcases stays with role | moves | ⟨on, away⟩
    · exact absurd idle.1 role
    · exact absurd idle.2 moves
    · rcases on with e | e <;> rw [e] <;> exact if_neg away
  · rfl

theorem State.Touched.staysParked (h : z.Touched y c) (k : z.StaysParked c) : y.StaysParked c := by
  unfold State.StaysParked at k ⊢
  rw [h.role, h.trip, h.plan, h.record]
  exact k

/-- Stages 3 and 4 on a car that does not park. -/
theorem takeRest_touched (ruled : z.Touched (availabilityRules c y) c) (stays : z.StaysParked c) :
    z.Touched (takeRest c y) c := by
  have checked := ruled.trans (motionCheck_touched c _)
  rw [takeRest, parkingCheck_stays (checked.staysParked stays)]
  exact checked

/-- Stage 2 on a car that reports itself available, and is not let back in (R61). -/
theorem availabilityRules_stays (on : (z.car c).available = true)
    (stays : z.role c = .unavailable → (z.car c).included = true → (z.car c).recallFailed = true) :
    availabilityRules c z = z.updCar c fun r => { r with pendUnavail := false } := by
  rw [availabilityRules, if_pos on]
  refine if_neg ?_
  rw [State.role, State.updCar_car_same]
  rintro ⟨role, included, failed⟩
  have some : (z.car c).recallFailed = true := stays role included
  rw [show (z.car c).recallFailed = false from failed] at some
  cases some

/-- Stage 2 on an UNAVAILABLE car that comes back (R61, R57). -/
theorem availabilityRules_back (on : (z.car c).available = true) (role : z.role c = .unavailable)
    (included : (z.car c).included = true) (unfailed : (z.car c).recallFailed = false) :
    availabilityRules c z = handBack c (z.updCar c fun r => { r with pendUnavail := false, role := .held }) := by
  rw [availabilityRules, if_pos on]
  refine (if_pos ?_).trans ?_
  · rw [State.role, State.updCar_car_same]; exact ⟨role, included, unfailed⟩
  · rw [State.updCar_updCar]

/-- Stage 2 on a car that reports itself not available (R61). -/
theorem availabilityRules_off (off : (z.car c).available = false) :
    availabilityRules c z = notAvailable c z := if_neg (by rw [off]; decide)

theorem notAvailable_idle (idle : z.role c = .held ∨ z.role c = .parked ∨
    (z.role c = .recall ∨ z.role c = .service) ∧ (z.trip c).state.still = true) :
    notAvailable c z = withdrawCar c z := by
  unfold notAvailable
  rcases idle with e | e | ⟨e | e, still⟩
  · rw [e]
  · rw [e]
  · rw [e]; exact if_pos still
  · rw [e]; exact if_pos still

theorem notAvailable_busy (role : z.role c = .recall ∨ z.role c = .service)
    (moves : (z.trip c).state.moving = true) :
    notAvailable c z = z.updCar c fun r => { r with pendUnavail := true } := by
  have busy : ¬ (z.trip c).state.still = true := by rw [TripState.still_eq, moves]; decide
  unfold notAvailable
  rcases role with e | e
  · rw [e]; exact if_neg busy
  · rw [e]; exact if_neg busy

theorem notAvailable_rest (role : z.role c = .free ∨ z.role c = .unavailable ∨ z.role c = .lost) :
    notAvailable c z = z := by
  unfold notAvailable
  rcases role with e | e | e <;> rw [e]

theorem availabilityRules_on_touched (on : (z.car c).available = true) (role : z.role c ≠ .unavailable) :
    z.Touched (availabilityRules c z) c := by
  rw [availabilityRules_stays on fun out => absurd out role]
  exact .updCar z c false

/-- Stage 2 on a FREE car, and on an UNAVAILABLE one that does not come back (R61). -/
theorem availabilityRules_out_touched (role : z.role c = .free ∨ z.role c = .unavailable)
    (out : (z.car c).available = true → (z.car c).included = true → (z.car c).recallFailed = true ∨
      z.role c ≠ .unavailable) : z.Touched (availabilityRules c z) c := by
  cases on : (z.car c).available
  · rw [availabilityRules_off on, notAvailable_rest (role.imp_right .inl)]
    exact .refl z c
  · rw [availabilityRules_stays on fun own included => (out on included).resolve_right fun k => k own]
    exact .updCar z c false

/-! ## What the moves keep of a trip -/

/-- Out of the queue, no move starts or ends a trip that does not wait. -/
theorem RecordMove.state {q : CarRecord} (m : RecordMove s c q) (idle : (s.trip c).state ≠ .waiting)
    (unqueued : c ∉ s.queue.entries) : q.trip.state = (s.trip c).state := by
  cases m with
  | dropped waits => exact absurd waits idle
  | deselected => rw [dropEntry_car, if_neg fun k => idle k.2]; rfl
  | granted allowed queued => exact absurd queued unqueued
  | _ => rfl

theorem Moves.state (m : Moves s t) (idle : (s.trip c).state ≠ .waiting) (unqueued : c ∉ s.queue.entries) :
    (t.trip c).state = (s.trip c).state ∧ c ∉ t.queue.entries := by
  refine Moves.keeps (P := fun u => (u.trip c).state = (s.trip c).state ∧ c ∉ u.queue.entries)
    (fun u v kept k => ?_) m ⟨rfl, unqueued⟩
  obtain ⟨state, out⟩ := kept
  exact ⟨((k.record c).state (by rw [state]; exact idle) out).trans state, k.unqueued out⟩

/-- No move takes a car off the stack. -/
theorem Move.stacked (m : Move s t) (on : c ∈ s.gate.stack) : c ∈ t.gate.stack := by
  have kept (same : t.gate = s.gate) : c ∈ t.gate.stack := by rw [same]; exact on
  cases m with
  | call => exact kept (by rw [callCar_gate])
  | endRecall => exact kept (endRecall_gate s)
  | drop d r => exact kept (dropEntry_gate d r s)
  | deselect d => exact kept (deselect_gate d s)
  | land => exact kept (by simp [orderToLand])
  | landReverse => exact kept (by simp [orderToLand])
  | select => exact kept (by simp [selectCar])
  | carGrant d =>
    rw [Machine.carGrant, State.noticeCar_gate]
    show c ∈ (removeEntry d _).gate.stack ++ [d]
    rw [removeEntry, setEntries_gate, State.updCar_gate]
    exact List.mem_append.2 (.inl on)
  | panelGrant e => exact on
  | _ => exact kept rfl

theorem Moves.stacked (m : Moves s t) (on : c ∈ s.gate.stack) : c ∈ t.gate.stack :=
  Moves.keeps (P := fun u => c ∈ u.gate.stack) (fun _ _ kept k => k.stacked kept) m on

/-! ## What the hand-back keeps of a trip -/

theorem joinPlan_others (c : CarIx) (s : State) : (joinPlan c s).gate = s.gate ∧
    (joinPlan c s).queue = s.queue ∧ (joinPlan c s).shed = s.shed ∧
    (joinPlan c s).plan.phase = s.plan.phase := by
  unfold joinPlan
  split
  · exact ⟨rfl, rfl, rfl, rfl⟩
  · exact ⟨rfl, rfl, rfl, rfl⟩

theorem joinPlan_trip (c : CarIx) (s : State) : (joinPlan c s).trip c = s.trip c := by
  rw [State.trip, joinPlan_car, park_car, if_pos rfl]
  split
  · rfl
  · rfl

theorem handBack_quit (h : s.Quit c) : (handBack c s).Quit c := by
  unfold handBack
  split
  · obtain ⟨gate, queue, shed, -⟩ := joinPlan_others c s
    refine (runCalls_moves _).quit ⟨?_, ?_, ?_, ?_, ?_⟩
    · rw [joinPlan_trip]; exact h.idle
    · rw [queue]; exact h.unqueued
    · rw [gate]; exact h.unstacked
    · rw [gate]; exact h.unheld
    · rw [shed]; exact h.spared
  · exact h

theorem handBack_phase (c : CarIx) (s : State) : (handBack c s).plan.phase = s.plan.phase := by
  unfold handBack
  split
  · rw [runCalls_phase, (joinPlan_others c s).2.2.2]
  · rfl

theorem handBack_pendDesel (none : (s.car c).pendDesel = false) :
    ((handBack c s).car c).pendDesel = false := by
  unfold handBack
  split
  · refine (runCalls_moves _).pendDesel_none ?_
    rw [joinPlan_car, park_car, if_pos rfl]
    split
    · exact none
    · exact none
  · exact none

/-- After the hand-back the car does not park at the parking check (R57, R105, R108). -/
theorem State.Returned.staysParked (h : z.Returned (s.Joins c) c) (phase : z.plan.phase = s.plan.phase) :
    z.StaysParked c := by
  by_cases joins : s.Joins c
  · have joined := (h.placed joins).joined
    by_cases landed : (z.car c).position = .atRecall
    · obtain ⟨-, at_⟩ := (State.joined_of_landing landed).1 joined
      refine .inl fun role => ?_
      rcases at_ with ⟨e, -⟩ | ⟨e, -⟩ <;> rw [role] at e <;> cases e
    · exact .inr (.inr ⟨by rw [phase]; exact joins.1, landed⟩)
  · refine .inl fun role => ?_
    rw [(h.held joins).1] at role
    cases role

theorem State.Returned.role_ne {joins : Prop} (h : z.Returned joins c) :
    z.role c ≠ .unavailable := by
  intro role
  by_cases on : joins
  · have joined := (h.placed on).joined
    by_cases landed : (z.car c).position = .atRecall
    · obtain ⟨-, at_⟩ := (State.joined_of_landing landed).1 joined
      rcases at_ with ⟨e, -⟩ | ⟨e, -⟩ <;> rw [role] at e <;> cases e
    · rcases (State.joined_of_away landed).1 joined with ⟨e, -⟩ | ⟨e, -⟩ <;> rw [role] at e <;> cases e
  · rw [(h.held on).1] at role
    cases role

end Sys2Proof.Machine
end

section
/-!
PROOFS. What the stages of a STATE keep of a trip that does not wait, and of a car that has quit its trip; and the two
ways in which a LOST car returns (R54, R55, R63).
-/

namespace Sys2Proof.Machine

variable {s t y z : State} {c d : CarIx} {ph : Phase} {p : Option Role}

/-! ## A trip at rest in the stages -/

/-- Car c has the trip state `st` and the pre-loss role `p`, in phase `ph`. -/
structure State.Rests (z : State) (c : CarIx) (st : TripState) (ph : Phase) (p : Option Role) : Prop where
  state : (z.trip c).state = st
  phase : z.plan.phase = ph
  preLoss : (z.car c).preLoss = p

namespace State.Rests

variable {st : TripState}

theorem updCar (h : z.Rests c st ph p) {f : CarRecord → CarRecord}
    (keeps : (f (z.car c)).trip.state = (z.car c).trip.state ∧ (f (z.car c)).preLoss = (z.car c).preLoss) :
    (z.updCar c f).Rests c st ph p :=
  ⟨by rw [State.trip, State.updCar_car_same, keeps.1]; exact h.state, h.phase,
    by rw [State.updCar_car_same, keeps.2]; exact h.preLoss⟩

theorem dropEntry (h : z.Rests c st ph p) (quiet : st ≠ .waiting) (r : DropReason) :
    (dropEntry c r z).Rests c st ph p := by
  have same : Machine.dropEntry c r z = z := if_neg (by rw [h.state]; exact quiet)
  rw [same]; exact h

theorem withdrawCar (h : z.Rests c st ph p) (quiet : st ≠ .waiting) : (withdrawCar c z).Rests c st ph p := by
  have dropped := h.dropEntry quiet .role
  refine ⟨?_, dropped.phase, ?_⟩
  · rw [State.trip, withdrawCar_car, if_pos rfl]; exact dropped.state
  · rw [withdrawCar_car, if_pos rfl]; exact dropped.preLoss

theorem park (h : z.Rests c st ph p) : (park c z).Rests c st ph p :=
  ⟨by rw [State.trip, park_car, if_pos rfl]; exact h.state, h.phase,
    by rw [park_car, if_pos rfl]; exact h.preLoss⟩

theorem handBack (h : z.Rests c st ph p) : (handBack c z).Rests c st ph p := by
  refine ⟨?_, (handBack_phase c z).trans h.phase, (handBack_flags c z).1.trans h.preLoss⟩
  unfold Machine.handBack
  split
  · have fate := (callHeads_kept (joinPlan c z).plan.recallList.length (joinPlan c z)).fate c
    rw [joinPlan_trip] at fate
    exact (congrArg Prod.fst fate).trans h.state
  · exact h.state

theorem deselectionCheck (h : z.Rests c st ph p) (quiet : st ≠ .waiting) :
    (deselectionCheck c z).Rests c st ph p := by
  unfold Machine.deselectionCheck
  split
  · have parked := (h.dropEntry quiet .role).park
    have done := parked.updCar (f := fun r => { r with pendDesel := false }) ⟨rfl, rfl⟩
    unfold deselect
    exact ⟨by rw [State.trip, State.noticeCar_car]; exact done.state,
      by rw [State.noticeCar_plan]; exact done.phase, by rw [State.noticeCar_car]; exact done.preLoss⟩
  · exact h

theorem applyExclusion (h : z.Rests c st ph p) (quiet : st ≠ .waiting) :
    (applyExclusion c z).Rests c st ph p := by
  have marked : (z.updCar c fun r => { r with pendExcl := true }).Rests c st ph p := h.updCar ⟨rfl, rfl⟩
  unfold Machine.applyExclusion
  split
  · exact h.withdrawCar quiet
  · exact h.withdrawCar quiet
  · split
    · exact h.withdrawCar quiet
    · exact marked
  · split
    · exact h.withdrawCar quiet
    · exact marked
  · split
    · exact marked
    · exact h
  all_goals exact h

theorem heldExclusion (h : z.Rests c st ph p) (quiet : st ≠ .waiting) :
    (heldExclusion c z).Rests c st ph p := by
  unfold Machine.heldExclusion
  split
  · exact (h.updCar (f := fun r => { r with pendExcl := false }) ⟨rfl, rfl⟩).applyExclusion quiet
  · exact h

/-- The car that returns MOVING keeps its trip, and its pre-loss role is gone (R55). -/
theorem returnMoving (h : z.Rests c st ph p) (quiet : st ≠ .waiting) :
    (returnMoving c z).Rests c st ph none := by
  have restored (role : Role) : (z.updCar c fun r => { r with role := role, preLoss := none }).Rests c st ph none :=
    ⟨by rw [State.trip, State.updCar_car_same]; exact h.state, h.phase, by rw [State.updCar_car_same]⟩
  unfold Machine.returnMoving
  dsimp only
  split
  · exact ((restored _).handBack.heldExclusion quiet).deselectionCheck quiet
  · exact ((restored _).heldExclusion quiet).deselectionCheck quiet

theorem returnStill (h : z.Rests c st ph p) : (returnStill c z).Rests c .none ph none := by
  have released (role : Role) : (endFrozen c role z).Rests c .none ph none :=
    ⟨by rw [State.trip, endFrozen_car, if_pos rfl]; rfl, (endFrozen_phase c role z).trans h.phase,
      by rw [endFrozen_car, if_pos rfl]; rfl⟩
  unfold Machine.returnStill
  dsimp only
  split
  · exact (released _).handBack
  · exact released _

/-- An idle car stays idle through its return (R54, R55). -/
theorem resolveReturn (h : z.Rests c .none ph p) : ∃ q, (resolveReturn c z).Rests c .none ph q := by
  unfold Machine.resolveReturn
  split
  · split
    · exact ⟨none, h.returnStill⟩
    · exact ⟨none, h.returnMoving (by decide)⟩
  · exact ⟨p, h⟩

theorem availabilityRules (h : z.Rests c st ph p) (quiet : st ≠ .waiting) :
    (availabilityRules c z).Rests c st ph p := by
  have marked (b : Bool) : (z.updCar c fun r => { r with pendUnavail := b }).Rests c st ph p :=
    h.updCar ⟨rfl, rfl⟩
  unfold Machine.availabilityRules
  split
  · unfold nowAvailable
    dsimp only
    split
    · exact ((marked false).updCar (f := fun r => { r with role := .held }) ⟨rfl, rfl⟩).handBack
    · exact marked false
  · unfold notAvailable
    split
    · exact h.withdrawCar quiet
    · exact h.withdrawCar quiet
    · split
      · exact h.withdrawCar quiet
      · exact marked true
    · split
      · exact h.withdrawCar quiet
      · exact marked true
    all_goals exact h

theorem motionCheck (h : z.Rests c st ph p) : (motionCheck c z).Rests c st ph p := by
  have same := motionCheck_touched c z
  exact ⟨by rw [same.trip]; exact h.state, by rw [same.plan]; exact h.phase,
    by rw [same.record]; exact h.preLoss⟩

theorem parkingCheck (h : z.Rests c st ph p) : (parkingCheck c z).Rests c st ph p := by
  have left : (leavePlan c (z.updCar c fun r => { r with powered := false, role := .held })).Rests c st ph p :=
    ⟨by rw [State.trip, leavePlan_car, if_pos rfl, State.updCar_car_same]; exact h.state, h.phase,
      by rw [leavePlan_car, if_pos rfl, State.updCar_car_same]; exact h.preLoss⟩
  unfold Machine.parkingCheck
  split
  · split
    · split
      · exact h.park
      · exact h
    · split
      · exact h.park
      · exact h
    · split
      · exact h.park
      · exact left
    · exact h
  · exact h

theorem takeRest (h : z.Rests c st ph p) (quiet : st ≠ .waiting) : (takeRest c z).Rests c st ph p :=
  (h.availabilityRules quiet).motionCheck.parkingCheck

end State.Rests

/-! ## A car that has quit its trip -/

/-- The car has quit its trip and holds neither a pre-loss role nor a pending effect. -/
structure State.Resolved (z : State) (c : CarIx) : Prop where
  quit : z.Quit c
  preLoss : (z.car c).preLoss = none
  pending : (z.car c).pendExcl = false ∧ (z.car c).pendUnavail = false ∧ (z.car c).pendDesel = false

namespace State.Resolved

theorem of_same (h : z.Resolved c) (state : (y.trip c).state = (z.trip c).state) (queue : y.queue = z.queue)
    (gate : y.gate = z.gate) (shed : y.shed = z.shed) (preLoss : (y.car c).preLoss = (z.car c).preLoss)
    (pending : (y.car c).pendExcl = false ∧ (y.car c).pendUnavail = false ∧ (y.car c).pendDesel = false) :
    y.Resolved c where
  quit := ⟨state.trans h.quit.idle, by rw [queue]; exact h.quit.unqueued,
    by rw [gate]; exact h.quit.unstacked, by rw [gate]; exact h.quit.unheld, by rw [shed]; exact h.quit.spared⟩
  preLoss := preLoss.trans h.preLoss
  pending := pending

theorem updCar (h : z.Resolved c) {f : CarRecord → CarRecord} (trip : (f (z.car c)).trip = (z.car c).trip)
    (preLoss : (f (z.car c)).preLoss = (z.car c).preLoss)
    (pending : (f (z.car c)).pendExcl = false ∧ (f (z.car c)).pendUnavail = false ∧
      (f (z.car c)).pendDesel = false) : (z.updCar c f).Resolved c := by
  refine h.of_same ?_ rfl rfl rfl ?_ ?_
  · rw [State.trip, State.updCar_car_same, trip]; rfl
  · rw [State.updCar_car_same, preLoss]
  · rw [State.updCar_car_same]; exact pending

theorem handBack (h : z.Resolved c) : (handBack c z).Resolved c := by
  obtain ⟨preLoss, -, excl, unavail⟩ := handBack_flags c z
  obtain ⟨excl', unavail', desel⟩ := h.pending
  exact ⟨handBack_quit h.quit, preLoss.trans h.preLoss, excl.trans excl', unavail.trans unavail',
    handBack_pendDesel desel⟩

theorem moves (m : Moves z t) (h : z.Resolved c) : t.Resolved c := by
  obtain ⟨preLoss, -, excl, unavail⟩ := m.record_flags c
  obtain ⟨excl', unavail', desel⟩ := h.pending
  exact ⟨m.quit h.quit, preLoss.trans h.preLoss, excl.trans excl', unavail.trans unavail', m.pendDesel_none desel⟩

theorem withdrawCar (h : z.Resolved c) : (withdrawCar c z).Resolved c := by
  have same : dropEntry c .role z = z := if_neg (by rw [h.quit.idle]; decide)
  have record : (Machine.withdrawCar c z).car c = { z.car c with
      powered := false, role := .unavailable, recallTimer := none, slotStart := none, pendExcl := false
      pendUnavail := false, pendDesel := false } := by
    rw [withdrawCar_car, if_pos rfl, same]
  have made : Machine.withdrawCar c z = makeUnavailable c z := by rw [Machine.withdrawCar, same]
  refine h.of_same ?_ ?_ ?_ ?_ ?_ (withdrawCar_flags c z)
  · rw [State.trip, record]; rfl
  · rw [made]; rfl
  · rw [made]; rfl
  · rw [made]; rfl
  · rw [record]

theorem park (h : z.Resolved c) : (park c z).Resolved c := by
  have record : (Machine.park c z).car c = { z.car c with
      powered := false, role := .parked, recallTimer := none, slotStart := none } := by
    rw [park_car, if_pos rfl]
  refine h.of_same ?_ rfl rfl rfl ?_ ?_
  · rw [State.trip, record]; rfl
  · rw [record]
  · rw [record]; exact h.pending

theorem availabilityRules (h : z.Resolved c) : (availabilityRules c z).Resolved c := by
  obtain ⟨excl, unavail, desel⟩ := h.pending
  have marked : (z.updCar c fun r => { r with pendUnavail := false }).Resolved c :=
    h.updCar rfl rfl ⟨excl, rfl, desel⟩
  have still : (z.trip c).state.still = true := by rw [h.quit.idle]; rfl
  unfold Machine.availabilityRules
  split
  · unfold nowAvailable
    dsimp only
    split
    · refine (marked.updCar (f := fun r => { r with role := .held }) rfl rfl ?_).handBack
      exact marked.pending
    · exact marked
  · unfold notAvailable
    split
    · exact h.withdrawCar
    · exact h.withdrawCar
    · rw [if_pos still]; exact h.withdrawCar
    · rw [if_pos still]; exact h.withdrawCar
    all_goals exact h

theorem parkingCheck (h : z.Resolved c) : (parkingCheck c z).Resolved c := by
  have left : (leavePlan c (z.updCar c fun r => { r with powered := false, role := .held })).Resolved c := by
    have record : (leavePlan c (z.updCar c fun r => { r with powered := false, role := .held })).car c =
        { z.car c with powered := false, role := .held, recallTimer := none, slotStart := none } := by
      rw [leavePlan_car, if_pos rfl, State.updCar_car_same]
    refine h.of_same ?_ rfl rfl rfl ?_ ?_
    · rw [State.trip, record]; rfl
    · rw [record]
    · rw [record]; exact h.pending
  unfold Machine.parkingCheck
  split
  · split
    · split
      · exact h.park
      · exact h
    · split
      · exact h.park
      · exact h
    · split
      · exact h.park
      · exact left
    · exact h
  · exact h

theorem takeRest (h : z.Resolved c) : (takeRest c z).Resolved c := by
  have ruled := h.availabilityRules
  have checked : (motionCheck c (Machine.availabilityRules c z)).Resolved c := by
    unfold motionCheck
    split
    · exact ruled.of_same rfl rfl rfl rfl rfl ruled.pending
    · exact ruled
  exact checked.parkingCheck

end State.Resolved

theorem endFrozen_resolved (h : s.Consistent) (lost : s.role c = .lost) (role : Role) :
    (endFrozen c role s).Resolved c := by
  refine ⟨endFrozen_quit h lost role, ?_, ?_⟩
  · rw [endFrozen_car, if_pos rfl]; rfl
  · rw [endFrozen_car, if_pos rfl]; exact ⟨rfl, rfl, rfl⟩

theorem returnStill_resolved (h : s.Consistent) (lost : s.role c = .lost) : (returnStill c s).Resolved c := by
  have released := endFrozen_resolved h lost (s.car c).returnRole
  unfold returnStill
  dsimp only
  split
  · exact released.handBack
  · exact released

/-! ## Roles in a generator phase -/

/-- No move gives a car the role ABSENT, FREE or LOST. -/
theorem Moves.live (m : Moves s t) (h : (s.role c).live) : (t.role c).live := by
  refine m.record_keeps (P := fun q => q.role.live) (fun u q live k => ?_) h
  cases k with
  | same => exact live
  | called => exact ⟨by simp, by simp, by simp⟩
  | parked => exact ⟨by simp, by simp, by simp⟩
  | dropped => exact live
  | deselected => exact ⟨by simp, by simp, by simp⟩
  | ordered => exact live
  | selected => exact ⟨by simp, by simp, by simp⟩
  | granted => exact live

theorem handBack_live (h : (s.role c).live) : ((handBack c s).role c).live := by
  unfold handBack
  split
  · refine (runCalls_moves _).live ?_
    rw [State.role, joinPlan_car, park_car, if_pos rfl]
    split
    · exact ⟨by simp, by simp, by simp⟩
    · exact h
  · exact h

theorem Role.live_cases {r : Role} (h : r.live) :
    r = .unavailable ∨ r = .held ∨ r = .parked ∨ r = .recall ∨ r = .service := by
  obtain ⟨absent, free, lost⟩ := h
  cases r <;> simp_all

theorem deselectionCheck_live (h : (s.role c).live) : ((deselectionCheck c s).role c).live := by
  unfold deselectionCheck
  split
  · rw [State.role, deselect_car, if_pos rfl]; exact ⟨by simp, by simp, by simp⟩
  · exact h

/-- The deselection check leaves a car in another role than SERVICE, and one of which no deselection is
pending (R114). -/
theorem deselectionCheck_stays (stays : s.role c ≠ .service ∨ (s.car c).pendDesel = false ∨
    (s.trip c).state ≠ .none) : deselectionCheck c s = s := by
  refine if_neg fun ⟨role, pending, idle⟩ => ?_
  rcases stays with k | k | k
  · exact k role
  · rw [k] at pending; cases pending
  · exact k idle

theorem heldExclusion_none (none : (s.car c).pendExcl = false) : heldExclusion c s = s :=
  if_neg (by rw [none]; decide)

/-- A pending exclusion met on the return of an idle car withdraws it (R55, R60). -/
theorem heldExclusion_idle (some : (s.car c).pendExcl = true) (live : (s.role c).live)
    (idle : (s.trip c).state = .none) : (heldExclusion c s).role c = .unavailable := by
  have cleared : (s.updCar c fun r => { r with pendExcl := false }).role c = s.role c := by
    rw [State.role, State.updCar_car_same]; rfl
  have trip : (s.updCar c fun r => { r with pendExcl := false }).trip c = s.trip c := by
    rw [State.trip, State.updCar_car_same]; rfl
  rw [heldExclusion, if_pos some]
  have withdrawn (x : State) : (withdrawCar c x).role c = .unavailable := by
    rw [State.role, withdrawCar_self]; rfl
  have still : (s.trip c).state.still = true := by rw [idle]; rfl
  rcases Role.live_cases live with e | other
  · rw [applyExclusion_rest (.inr (.inl (cleared.trans e)))]
    exact cleared.trans e
  · rw [applyExclusion_idle]
    · exact withdrawn _
    · rw [cleared, trip]
      rcases other with e | e | e | e
      · exact .inl e
      · exact .inr (.inl e)
      · exact .inr (.inr ⟨.inl e, still⟩)
      · exact .inr (.inr ⟨.inr e, still⟩)

/-- A pending exclusion goes on waiting for the end of a trip in motion (R55, R60). -/
theorem heldExclusion_busy (role : s.role c = .recall ∨ s.role c = .service)
    (moves : (s.trip c).state.moving = true) : heldExclusion c s = s := by
  unfold heldExclusion
  split
  · rename_i some
    have busy : ¬ (s.trip c).state.still = true := by rw [TripState.still_eq, moves]; decide
    have cleared : (s.updCar c fun r => { r with pendExcl := false }).role c = s.role c := by
      rw [State.role, State.updCar_car_same]; rfl
    have trip : (s.updCar c fun r => { r with pendExcl := false }).trip c = s.trip c := by
      rw [State.trip, State.updCar_car_same]; rfl
    rw [applyExclusion_busy (.inl (by rw [cleared, trip]; exact ⟨role, busy⟩)), State.updCar_updCar]
    refine State.updCar_self s c ?_
    show { s.car c with pendExcl := true } = s.car c
    rw [← some]
  · rfl

end Sys2Proof.Machine
end

section
/-!
PROOFS. What a STATE leaves of its car, by the role and the trip it finds (R48, R49, R54, R55, R57, R61, R108).
-/

namespace Sys2Proof.Machine

variable {s t v x y z : State} {c d : CarIx}

/-! ## Out of the stages and through the event's end -/

theorem State.CarAgrees.apart (h : s.CarAgrees c)
    (role : s.role c ≠ .parked ∧ s.role c ≠ .service ∧ s.role c ≠ .held)
    (idle : (s.trip c).state ≠ .waiting) : s.Apart c :=
  ⟨⟨role.1, role.2.1⟩, idle, h.not_queued_of_state idle, not_listed_iff.2 (h.not_listed role.2.2)⟩

/-- A car handed back by the stages (R57). -/
theorem returned_rest (held : v.role c = .held) (apart : v.Apart c)
    (ruled : (handBack c v).Touched (availabilityRules c z) c) (m : Moves (takeRest c z) t) :
    t.Returned (v.Joins c) c ∧ (t.car c).recallFailed = (v.car c).recallFailed := by
  have back := handBack_returned held apart
  have left := takeRest_touched ruled (back.staysParked (handBack_phase c v))
  refine ⟨m.returned (left.returned back), (m.record_flags c).2.1.trans ?_⟩
  rw [left.record]
  exact (handBack_flags c v).2.1

/-- A car on which the stages do nothing. -/
theorem apart_rest (ruled : z.Touched (availabilityRules c z) c) (stays : z.StaysParked c)
    (apart : z.Apart c) (m : Moves (takeRest c z) t) : t.role c = z.role c ∧
      (t.car c).powered = (z.car c).powered ∧ (t.car c).slotStart = (z.car c).slotStart ∧
      (t.car c).recallTimer = (z.car c).recallTimer := by
  have left := takeRest_touched ruled stays
  have record := (m.leftApart (left.apart apart)).record
  rw [left.record] at record
  generalize ((takeRest c z).car c).pendUnavail = b at record
  rw [State.role, record]
  exact ⟨rfl, rfl, rfl, rfl⟩

theorem State.Touched.withdrawn (h : z.Touched y c) (k : s.Withdrawn z c) : s.Withdrawn y c := by
  refine ⟨by rw [h.role]; exact k.role, ?_, by rw [h.trip]; exact k.idle, by rw [h.listed]; exact k.unlisted,
    by rw [h.queue]; exact k.unqueued, by rw [h.plan]; exact k.unserved, ?_, ?_,
    fun waits => by rw [h.trip]; exact k.dropped waits⟩
  · rw [h.record]; exact k.unpowered
  · rw [h.record]; exact k.slot
  · rw [h.record]; exact k.timer

/-- A car withdrawn by a status that says it is not available (R61). -/
theorem withdrawn_rest (agrees : z.CarAgrees c) (off : (z.car c).available = false)
    (idle : z.role c = .held ∨ z.role c = .parked ∨
      (z.role c = .recall ∨ z.role c = .service) ∧ (z.trip c).state.still = true)
    (still : (z.trip c).state.still = true) (m : Moves (takeRest c z) t) : z.Withdrawn t c := by
  have out := withdrawCar_withdrawn (fun queued => (agrees.waits queued).1) still
  have ruled : (withdrawCar c z).Touched (availabilityRules c z) c := by
    rw [availabilityRules_off off, notAvailable_idle idle]; exact .refl _ c
  have left := takeRest_touched ruled (.inl (by rw [out.role]; decide))
  exact m.withdrawn (left.withdrawn out)

/-- Stage 2 on a car in motion on a permit (R61). -/
theorem availabilityRules_busy (role : z.role c = .recall ∨ z.role c = .service)
    (moves : (z.trip c).state.moving = true) : availabilityRules c z =
      z.updCar c fun r => { r with pendUnavail := !(z.car c).available } := by
  cases on : (z.car c).available
  · rw [availabilityRules_off on, notAvailable_busy role moves]; rfl
  · rw [availabilityRules_stays on fun out => by rcases role with e | e <;> rw [e] at out <;> cases out]
    rfl

theorem motionCheck_car (c d : CarIx) (z : State) : (motionCheck c z).car d = z.car d := by
  unfold motionCheck
  split
  · rfl
  · rfl

/-- What is left of a car in motion on a permit. -/
structure State.Busy (z t : State) (c : CarIx) : Prop where
  role : t.role c = z.role c
  powered : (t.car c).powered = (z.car c).powered
  state : (t.trip c).state = (z.trip c).state
  unqueued : c ∉ t.queue.entries
  unlisted : listed t c = false

/-- No move acts on a trip in motion but to order it to land. -/
theorem Move.busy (m : Move z t) (role : z.role c ≠ .parked) (moves : (z.trip c).state.moving = true)
    (unqueued : c ∉ z.queue.entries) (unlisted : listed z c = false) : z.Busy t c := by
  have record := m.record c
  have waits : (z.trip c).state ≠ .waiting := fun e => by rw [e] at moves; cases moves
  suffices same : (t.car c).role = z.role c ∧ (t.car c).powered = (z.car c).powered from
    ⟨same.1, same.2, record.state waits unqueued, m.unqueued unqueued, m.unlisted unlisted⟩
  generalize t.car c = q at record
  cases record with
  | called some => exact absurd (listed_iff.2 some) (by rw [unlisted]; decide)
  | parked some => exact absurd (listed_iff.2 some) (by rw [unlisted]; decide)
  | deselected may =>
    have still := may.2.2
    rw [TripState.still_eq, moves] at still
    cases still
  | selected allowed can =>
    simp only [canSelect, Bool.and_eq_true, beq_iff_eq] at can
    exact absurd can.1.1.1 role
  | granted allowed queued => exact absurd queued unqueued
  | _ => exact ⟨rfl, rfl⟩

theorem Moves.busy (m : Moves z t) (role : z.role c ≠ .parked) (moves : (z.trip c).state.moving = true)
    (unqueued : c ∉ z.queue.entries) (unlisted : listed z c = false) : z.Busy t c := by
  refine Moves.keeps (P := fun u => z.Busy u c) (fun u w kept k => ?_) m
    ⟨rfl, rfl, rfl, unqueued, unlisted⟩
  have next := k.busy (c := c) (by rw [kept.role]; exact role) (by rw [kept.state]; exact moves)
    kept.unqueued kept.unlisted
  exact ⟨next.role.trans kept.role, next.powered.trans kept.powered, next.state.trans kept.state,
    next.unqueued, next.unlisted⟩

/-- A status from a car in motion on a permit: the unavailability waits (R61). -/
theorem busy_rest (agrees : z.CarAgrees c) (role : z.role c = .recall ∨ z.role c = .service)
    (moves : (z.trip c).state.moving = true) (m : Moves (takeRest c z) t) : z.Busy t c ∧
      (t.car c).pendUnavail = !(z.car c).available ∧ (t.car c).pendExcl = (z.car c).pendExcl ∧
      (c ∈ z.gate.stack → c ∈ t.gate.stack) := by
  have stays : z.StaysParked c := .inr (.inl fun e => by rw [e] at moves; cases moves)
  have ruled : z.Touched (availabilityRules c z) c := by
    rw [availabilityRules_busy role moves]; exact .updCar z c _
  have left := takeRest_touched ruled stays
  have done : takeRest c z = motionCheck c (availabilityRules c z) :=
    parkingCheck_stays ((ruled.trans (motionCheck_touched c _)).staysParked stays)
  have record : (takeRest c z).car c = { z.car c with pendUnavail := !(z.car c).available } := by
    rw [done, motionCheck_car, availabilityRules_busy role moves, State.updCar_car_same]
  have waits : (z.trip c).state ≠ .waiting := fun e => by rw [e] at moves; cases moves
  have kept := m.busy (c := c) (by rw [left.role]; rcases role with e | e <;> rw [e] <;> decide)
    (by rw [left.trip]; exact moves) (by rw [left.queue]; exact agrees.not_queued_of_state waits)
    (by
      rw [left.listed]
      exact not_listed_iff.2 (agrees.not_listed (by rcases role with e | e <;> rw [e] <;> decide)))
  obtain ⟨-, -, excl, unavail⟩ := m.record_flags c
  refine ⟨⟨kept.role.trans left.role, ?_, ?_, kept.unqueued, kept.unlisted⟩, ?_, ?_, fun on => ?_⟩
  · rw [kept.powered, record]
  · rw [kept.state, left.trip]
  · rw [unavail, record]
  · rw [excl, record]
  · exact m.stacked (by rw [left.gate]; exact on)

/-- A car at its landing, off the supervision: no move but a selection acts on it. -/
theorem Moves.landed (m : Moves z t) (h : z.AtLanding c) (unqueued : c ∉ z.queue.entries)
    (unlisted : listed z c = false) (timer : (z.car c).recallTimer = none)
    (slot : (z.car c).slotStart = none) :
    t.AtLanding c ∧ (t.car c).recallTimer = none ∧ (t.car c).slotStart = none := by
  have kept := Moves.keeps (P := fun u => (u.AtLanding c ∧ c ∉ u.queue.entries ∧ listed u c = false) ∧
    (u.car c).recallTimer = none ∧ (u.car c).slotStart = none) (fun u w kept k => ?_) m
    ⟨⟨h, unqueued, unlisted⟩, timer, slot⟩
  · exact ⟨kept.1.1, kept.2⟩
  · obtain ⟨⟨at_, out, off⟩, timer, slot⟩ := kept
    refine ⟨⟨k.atLanding off out at_, k.unqueued out, k.unlisted off⟩, ?_⟩
    have record := k.record c
    generalize w.car c = q at record
    cases record with
    | called some => exact absurd (listed_iff.2 some) (by rw [off]; decide)
    | parked => exact ⟨rfl, rfl⟩
    | deselected => exact ⟨rfl, rfl⟩
    | _ => exact ⟨timer, slot⟩

/-! ## No return to resolve -/

theorem resolveReturn_other (role : y.role c ≠ .lost) : resolveReturn c y = y :=
  if_neg fun k => role k.1

/-- An UNAVAILABLE car that reports itself available, included and not recall-failed comes back (R61). -/
theorem unavailable_back (h : y.Consistent) (role : y.role c = .unavailable)
    (on : (y.car c).available = true) (included : (y.car c).included = true)
    (unfailed : (y.car c).recallFailed = false) (m : Moves (takeRest c y) t) : t.Returned (y.Joins c) c := by
  have apart := (State.CarAgrees.of_consistent h c).apart (by rw [role]; decide)
    (by rw [h.idle (.inr (.inr role))]; decide)
  have own : (y.updCar c fun r => { r with pendUnavail := false, role := .held }).car c =
      { y.car c with pendUnavail := false, role := .held } := State.updCar_car_same ..
  have ruled := availabilityRules_back on role included unfailed
  have back := (returned_rest (z := y) (v := y.updCar c fun r => { r with pendUnavail := false, role := .held })
    (by rw [State.role, own]) ⟨by rw [State.role, own]; exact ⟨by simp, by simp⟩,
      by rw [State.trip, own]; exact apart.idle, apart.unqueued, apart.unlisted⟩
    (by rw [ruled]; exact .refl _ c) m).1
  have same : (y.updCar c fun r => { r with pendUnavail := false, role := .held }).Joins c = y.Joins c := by
    rw [State.Joins, State.Joins, own]; rfl
  rw [same] at back
  exact back

theorem unavailable_stays (h : y.Consistent) (role : y.role c = .unavailable)
    (out : (y.car c).available = false ∨ (y.car c).included = false ∨ (y.car c).recallFailed = true)
    (m : Moves (takeRest c y) t) : t.role c = .unavailable := by
  have apart := (State.CarAgrees.of_consistent h c).apart (by rw [role]; decide)
    (by rw [h.idle (.inr (.inr role))]; decide)
  have ruled : y.Touched (availabilityRules c y) c :=
    availabilityRules_out_touched (.inr role) fun on included => by
      rcases out with k | k | k
      · rw [on] at k; cases k
      · rw [included] at k; cases k
      · exact .inl k
  exact (apart_rest ruled (.inl (by rw [role]; decide)) apart m).1.trans role

/-- An idle recall car parks at its recall landing (R108). -/
theorem recall_parks (h : y.Consistent) (role : y.role c = .recall) (idle : (y.trip c).state = .none)
    (on : (y.car c).available = true) (phase : y.plan.phase = .recall ∨ y.plan.phase = .service)
    (landed : (y.car c).position = .atRecall) (m : Moves (takeRest c y) t) :
    t.AtLanding c ∧ (t.car c).recallTimer = none ∧ (t.car c).slotStart = none := by
  have ruled := (availabilityRules_on_touched on (by rw [role]; decide)).trans (motionCheck_touched c _)
  obtain ⟨z, made⟩ : ∃ z, z = motionCheck c (availabilityRules c y) := ⟨_, rfl⟩
  rw [← made] at ruled
  have parks : takeRest c y = park c z := by
    rw [takeRest, ← made, parkingCheck, if_pos ⟨ruled.role.trans role, by rw [ruled.trip]; exact idle⟩,
      ruled.plan]
    rcases phase with e | e <;> rw [e] <;> exact if_pos (by rw [ruled.record]; exact landed)
  rw [parks] at m
  have record : (park c z).car c = { z.car c with
      powered := false, role := .parked, recallTimer := none, slotStart := none } := by
    rw [park_car, if_pos rfl]
  refine m.landed (.inl ?_) ?_ ?_ (by rw [record]) (by rw [record])
  · rw [State.role, record]; exact ⟨rfl, rfl⟩
  · show c ∉ z.queue.entries
    rw [ruled.queue]
    exact (State.CarAgrees.of_consistent h c).not_queued_of_state (by rw [idle]; decide)
  · exact not_listed_iff.2 (not_listed_filter c z.plan.recallList)

/-- An idle recall car elsewhere stays (R108). -/
theorem recall_stays (agrees : z.CarAgrees c) (role : z.role c = .recall) (idle : (z.trip c).state = .none)
    (on : (z.car c).available = true) (phase : z.plan.phase = .recall ∨ z.plan.phase = .service)
    (away : (z.car c).position ≠ .atRecall) (m : Moves (takeRest c z) t) : t.role c = .recall ∧
      (t.car c).powered = (z.car c).powered ∧ (t.car c).slotStart = (z.car c).slotStart := by
  have ruled := availabilityRules_on_touched on (by rw [role]; decide)
  obtain ⟨same, power, slot, -⟩ := apart_rest ruled (.inr (.inr ⟨phase, away⟩))
    (agrees.apart (by rw [role]; decide) (by rw [idle]; decide)) m
  exact ⟨same.trans role, power, slot⟩

/-! ## The return of a LOST car that reports STILL -/

theorem resolveReturn_still (lost : y.role c = .lost) (running : y.plan.phase.generator = true)
    (motion : (y.car c).motion = .still) : resolveReturn c y = returnStill c y := by
  rw [resolveReturn, if_pos ⟨lost, running⟩, motion]

theorem returnStill_not_held (role : (y.car c).returnRole ≠ .held) :
    returnStill c y = endFrozen c (y.car c).returnRole y := if_neg role

theorem returnStill_held (role : (y.car c).returnRole = .held) :
    returnStill c y = handBack c (endFrozen c .held y) := by
  rw [returnStill, role]
  exact if_pos rfl

/-- Excluded or not available, it is UNAVAILABLE (R54). -/
theorem lostStill_out (h : y.Consistent) (lost : y.role c = .lost)
    (out : (y.car c).included = false ∨ (y.car c).available = false)
    (m : Moves (takeRest c (returnStill c y)) t) : t.role c = .unavailable ∧
      (t.car c).powered = false ∧ (t.car c).recallTimer = none := by
  have role : (y.car c).returnRole = .unavailable :=
    if_pos (out.elim .inl fun k => .inr (.inl k))
  rw [returnStill_not_held (by rw [role]; decide), role] at m
  obtain ⟨z, made⟩ : ∃ z, z = endFrozen c .unavailable y := ⟨_, rfl⟩
  have record : z.car c = (y.car c).released .unavailable := by rw [made, endFrozen_car, if_pos rfl]
  have apart : z.Apart c := by rw [made]; exact endFrozen_apart h lost ⟨by decide, by decide⟩
  rw [← made] at m
  have own : z.role c = .unavailable := by rw [State.role, record]; rfl
  have ruled : z.Touched (availabilityRules c z) c :=
    availabilityRules_out_touched (.inr own) fun on included => by
      rw [record] at on included
      rcases out with k | k
      · rw [show (y.car c).included = true from included] at k; cases k
      · rw [show (y.car c).available = true from on] at k; cases k
  obtain ⟨same, power, -, timer⟩ := apart_rest ruled (.inl (by rw [own]; decide)) apart m
  exact ⟨same.trans own, by rw [power, record]; rfl, by rw [timer, record]; rfl⟩

/-- The car is not UNAVAILABLE on its return: included, available, with nothing pending (R54, R63). -/
def CarRecord.returns (r : CarRecord) : Prop :=
  r.included = true ∧ r.available = true ∧ r.pendExcl = false ∧ r.pendUnavail = false

theorem CarRecord.returns.role {r : CarRecord} (h : r.returns) : r.returnRole =
    if r.position = .atRecall ∧ r.recallFailed = false then .parked else .held := by
  obtain ⟨included, on, excl, unavail⟩ := h
  refine if_neg ?_
  rw [included, on, excl, unavail]
  simp

/-- At its recall landing it is PARKED, or selected since (R54). -/
theorem lostStill_landed (h : y.Consistent) (lost : y.role c = .lost) (returns : (y.car c).returns)
    (landed : (y.car c).position = .atRecall) (unfailed : (y.car c).recallFailed = false)
    (m : Moves (takeRest c (returnStill c y)) t) : t.AtLanding c := by
  have role : (y.car c).returnRole = .parked := returns.role.trans (if_pos ⟨landed, unfailed⟩)
  rw [returnStill_not_held (by rw [role]; decide), role] at m
  have quit := endFrozen_quit h lost .parked
  have unlisted : listed (endFrozen c .parked y) c = false :=
    not_listed_iff.2 (by rw [endFrozen_list]; exact not_listed_filter c y.plan.recallList)
  obtain ⟨z, made⟩ : ∃ z, z = endFrozen c .parked y := ⟨_, rfl⟩
  have record : z.car c = (y.car c).released .parked := by rw [made, endFrozen_car, if_pos rfl]
  rw [← made] at m quit unlisted
  have own : z.role c = .parked := by rw [State.role, record]; rfl
  have ruled : z.Touched (availabilityRules c z) c :=
    availabilityRules_on_touched (by rw [record]; exact returns.2.1) (by rw [own]; decide)
  have left := takeRest_touched ruled (.inl (by rw [own]; decide))
  refine (m.landed (.inl ?_) ?_ ?_ ?_ ?_).1
  · rw [left.role, left.record, record]; exact ⟨own, rfl⟩
  · rw [left.queue]; exact quit.unqueued
  · rw [left.listed]; exact unlisted
  · rw [left.record, record]; rfl
  · rw [left.record, record]; rfl

/-- Elsewhere, or with its recall failed, it is HELD and handed back (R54, R57, R109). -/
theorem lostStill_held (h : y.Consistent) (lost : y.role c = .lost) (returns : (y.car c).returns)
    (away : (y.car c).position ≠ .atRecall ∨ (y.car c).recallFailed = true)
    (m : Moves (takeRest c (returnStill c y)) t) :
    t.Returned (y.Joins c) c ∧ (t.car c).recallFailed = (y.car c).recallFailed := by
  have role : (y.car c).returnRole = .held := returns.role.trans (if_neg fun k => by
    rcases away with e | e
    · exact e k.1
    · rw [e] at k; cases k.2)
  rw [returnStill_held role] at m
  have apart := endFrozen_apart h lost (role := .held) ⟨by decide, by decide⟩
  have record : (endFrozen c .held y).car c = (y.car c).released .held := by
    rw [endFrozen_car, if_pos rfl]
  have held : (endFrozen c .held y).role c = .held := by rw [State.role, record]; rfl
  have back := handBack_returned held apart
  have available : ((handBack c (endFrozen c .held y)).car c).available = true := by
    have only := handBack_only (endFrozen_only (.refl y) c .held) c
    exact (congrArg CarInputs.available (only.cars c)).trans returns.2.1
  have ruled := availabilityRules_on_touched available back.role_ne
  obtain ⟨left, failed⟩ := returned_rest held apart ruled m
  have same : (endFrozen c .held y).Joins c = y.Joins c := by
    rw [State.Joins, State.Joins, endFrozen_phase, record]; rfl
  rw [same] at left
  exact ⟨left, failed.trans (by rw [record]; rfl)⟩

end Sys2Proof.Machine
end

section
/-!
PROOFS. The return of a LOST car that reports MOVING (R55), motion that the part did not permit (R49), and a FREE car
in START and MAINS (R56).
-/

namespace Sys2Proof.Machine

variable {s t v x y z : State} {c d : CarIx} {r : Role}

/-! ## The restored car -/

/-- The car's pre-loss role restored (R55). -/
def State.restored (s : State) (c : CarIx) (r : Role) : State :=
  s.updCar c fun q => { q with role := r, preLoss := none }

theorem State.restored_car (s : State) (c : CarIx) (r : Role) :
    (s.restored c r).car c = { s.car c with role := r, preLoss := none } := State.updCar_car_same ..

theorem State.restored_role (s : State) (c : CarIx) (r : Role) : (s.restored c r).role c = r := by
  rw [State.role, s.restored_car]

theorem State.restored_trip (s : State) (c : CarIx) (r : Role) : (s.restored c r).trip c = s.trip c := by
  rw [State.trip, s.restored_car]; rfl

/-- The restored car, handed back if it was HELD (R55, R57). -/
def State.broughtBack (s : State) (c : CarIx) (r : Role) : State :=
  if r = .held then handBack c (s.restored c r) else s.restored c r

theorem returnMoving_eq (pre : (y.car c).preLoss = some r) :
    returnMoving c y = deselectionCheck c (heldExclusion c (y.broughtBack c r)) := by
  rw [returnMoving, pre]
  rfl

theorem resolveReturn_moving (lost : y.role c = .lost) (running : y.plan.phase.generator = true)
    (motion : (y.car c).motion = .moving) : resolveReturn c y = returnMoving c y := by
  rw [resolveReturn, if_pos ⟨lost, running⟩, motion]

theorem broughtBack_live (live : r.live) : ((y.broughtBack c r).role c).live := by
  have restored : ((y.restored c r).role c).live := by rw [y.restored_role]; exact live
  unfold State.broughtBack
  split
  · exact handBack_live restored
  · exact restored

theorem broughtBack_pendExcl (c : CarIx) (r : Role) :
    ((y.broughtBack c r).car c).pendExcl = (y.car c).pendExcl := by
  unfold State.broughtBack
  split
  · rw [(handBack_flags c _).2.2.1, y.restored_car]
  · rw [y.restored_car]

theorem broughtBack_pendDesel (none : (y.car c).pendDesel = false) :
    ((y.broughtBack c r).car c).pendDesel = false := by
  have restored : ((y.restored c r).car c).pendDesel = false := by rw [y.restored_car]; exact none
  unfold State.broughtBack
  split
  · exact handBack_pendDesel restored
  · exact restored

theorem broughtBack_idle (idle : (y.trip c).state = .none) :
    ((y.broughtBack c r).trip c).state = .none := by
  have rests : (y.restored c r).Rests c .none y.plan.phase none :=
    ⟨by rw [y.restored_trip]; exact idle, rfl, by rw [y.restored_car]⟩
  unfold State.broughtBack
  split
  · exact rests.handBack.state
  · exact rests.state

/-- With nothing pending, the restored car is all that the return leaves (R55). -/
theorem returnMoving_quiet (pre : (y.car c).preLoss = some r) (excl : (y.car c).pendExcl = false)
    (desel : (y.car c).pendDesel = false) : returnMoving c y = y.broughtBack c r := by
  rw [returnMoving_eq pre, heldExclusion_none ((broughtBack_pendExcl c r).trans excl),
    deselectionCheck_stays (.inr (.inl (broughtBack_pendDesel desel)))]

/-- A car that returns in motion takes up its trip, with what is pending still pending (R55, R63). -/
theorem returnMoving_busy (pre : (y.car c).preLoss = some r) (role : r = .recall ∨ r = .service)
    (moves : (y.trip c).state.moving = true) : returnMoving c y = y.restored c r := by
  have brought : y.broughtBack c r = y.restored c r :=
    if_neg fun e => by rcases role with k | k <;> rw [e] at k <;> cases k
  have busy : ((y.restored c r).trip c).state.moving = true := by rw [y.restored_trip]; exact moves
  rw [returnMoving_eq pre, brought, heldExclusion_busy (by rw [y.restored_role]; exact role) busy]
  exact deselectionCheck_stays (.inr (.inr fun e => by rw [e] at busy; cases busy))

/-! ## What the return leaves -/

theorem State.CarAgrees.takeRest (h : z.CarAgrees c) : (takeRest c z).CarAgrees c := by
  have checked : (motionCheck c (Machine.availabilityRules c z)).CarAgrees c := by
    unfold motionCheck
    split
    · exact h.availabilityRules.of_plan rfl rfl rfl rfl
    · exact h.availabilityRules
  exact checked.parkingCheck

theorem returnMoving_agrees (h : y.Consistent) (lost : y.role c = .lost)
    (running : y.plan.phase.generator = true) (motion : (y.car c).motion = .moving) :
    (returnMoving c y).CarAgrees c := by
  rw [← resolveReturn_moving lost running motion]
  exact (State.CarAgrees.of_consistent h c).resolveReturn

/-- A LOST car does not wait (R51, R83). -/
theorem State.Consistent.lost_state (h : s.Consistent) (lost : s.role c = .lost) :
    (s.trip c).state ≠ .waiting := fun waits => by
  rcases h.waitingRole c waits with e | e <;> rw [lost] at e <;> cases e

/-- The trip is as it was, and the pre-loss role gone (R55). -/
theorem lostMoving_kept (h : y.Consistent) (lost : y.role c = .lost)
    (running : y.plan.phase.generator = true) (motion : (y.car c).motion = .moving)
    (m : Moves (takeRest c (returnMoving c y)) t) :
    (t.car c).preLoss = none ∧ (t.trip c).state = (y.trip c).state := by
  have quiet := h.lost_state lost
  have rests : y.Rests c (y.trip c).state y.plan.phase (y.car c).preLoss := ⟨rfl, rfl, rfl⟩
  have left := (rests.returnMoving quiet).takeRest quiet
  have idle : ((takeRest c (returnMoving c y)).trip c).state ≠ .waiting := by rw [left.state]; exact quiet
  have out := (returnMoving_agrees h lost running motion).takeRest.not_queued_of_state idle
  exact ⟨(m.record_flags c).1.trans left.preLoss, (m.state idle out).1.trans left.state⟩

/-- In motion it is in its pre-loss role again, in the stack, with its pending exclusion (R55, R63). -/
theorem lostMoving_busy (h : y.Consistent) (lost : y.role c = .lost)
    (running : y.plan.phase.generator = true) (motion : (y.car c).motion = .moving)
    (moves : (y.trip c).state.moving = true) (m : Moves (takeRest c (returnMoving c y)) t) :
    some (t.role c) = (y.car c).preLoss ∧ (t.car c).powered = (y.car c).powered ∧ c ∈ t.gate.stack ∧
      (t.car c).pendExcl = (y.car c).pendExcl ∧ (t.car c).pendUnavail = !(y.car c).available := by
  obtain ⟨r, pre, role⟩ : ∃ r, (y.car c).preLoss = some r ∧ (r = .recall ∨ r = .service) := by
    rcases h.chargedLost c (.inr moves) lost with e | e
    · exact ⟨_, e, .inl rfl⟩
    · exact ⟨_, e, .inr rfl⟩
  have agrees := returnMoving_agrees h lost running motion
  rw [returnMoving_busy pre role moves] at m agrees
  obtain ⟨kept, unavail, excl, stack⟩ := busy_rest agrees (by rw [y.restored_role]; exact role)
    (by rw [y.restored_trip]; exact moves) m
  refine ⟨?_, ?_, stack ((h.stackExact c).2 moves), ?_, ?_⟩
  · rw [kept.role, y.restored_role, pre]
  · rw [kept.powered, y.restored_car]
  · rw [excl, y.restored_car]
  · rw [unavail, y.restored_car]

/-- UNAVAILABLE, or idle and not available, it ends UNAVAILABLE and unpowered (R61). -/
theorem idle_out (agrees : z.CarAgrees c) (idle : (z.trip c).state = .none) (live : (z.role c).live)
    (out : (z.car c).available = false ∨ z.role c = .unavailable ∧ (z.car c).included = false)
    (m : Moves (takeRest c z) t) : t.role c = .unavailable ∧ (t.car c).powered = false := by
  have still : (z.trip c).state.still = true := by rw [idle]; rfl
  by_cases role : z.role c = .unavailable
  · have ruled : z.Touched (availabilityRules c z) c :=
      availabilityRules_out_touched (.inr role) fun on included => by
        rcases out with k | ⟨-, k⟩
        · rw [on] at k; cases k
        · rw [included] at k; cases k
    obtain ⟨same, power, -⟩ := apart_rest ruled (.inl (by rw [role]; decide))
      (agrees.apart (by rw [role]; decide) (by rw [idle]; decide)) m
    exact ⟨same.trans role, power.trans (agrees.off (by rw [role]; rfl))⟩
  · have off := out.resolve_right fun k => role k.1
    have left : z.Withdrawn t c := withdrawn_rest agrees off (by
      rcases (Role.live_cases live).resolve_left role with e | e | e | e
      · exact .inl e
      · exact .inr (.inl e)
      · exact .inr (.inr ⟨.inl e, still⟩)
      · exact .inr (.inr ⟨.inr e, still⟩)) still m
    exact ⟨left.role, left.unpowered⟩

theorem heldExclusion_live (live : (z.role c).live) (idle : (z.trip c).state = .none) :
    ((heldExclusion c z).role c).live := by
  cases pending : (z.car c).pendExcl
  · rw [heldExclusion_none pending]; exact live
  · rw [heldExclusion_idle pending live idle]; decide

/-- Idle, and not available or excluded with the exclusion pending, it is UNAVAILABLE (R55, R60, R61). -/
theorem lostMoving_out (h : y.Consistent) (lost : y.role c = .lost)
    (running : y.plan.phase.generator = true) (motion : (y.car c).motion = .moving)
    (pre : (y.car c).preLoss = some r) (live : r.live) (idle : (y.trip c).state = .none)
    (out : (y.car c).available = false ∨ (y.car c).pendExcl = true ∧ (y.car c).included = false)
    (m : Moves (takeRest c (returnMoving c y)) t) : t.role c = .unavailable ∧ (t.car c).powered = false := by
  have only : OnlyDecisions y (returnMoving c y) := by
    rw [← resolveReturn_moving lost running motion]; exact resolveReturn_only (.refl y) c
  have rests : y.Rests c .none y.plan.phase (y.car c).preLoss := ⟨idle, rfl, rfl⟩
  have brought := broughtBack_live (y := y) (c := c) live
  have still := broughtBack_idle (r := r) idle
  refine idle_out (returnMoving_agrees h lost running motion) (rests.returnMoving (by decide)).state ?_ ?_ m
  · rw [returnMoving_eq pre]
    exact deselectionCheck_live (heldExclusion_live brought still)
  · rcases out with off | ⟨pending, excluded⟩
    · exact .inl ((congrArg CarInputs.available (only.cars c)).trans off)
    · refine .inr ⟨?_, (congrArg CarInputs.included (only.cars c)).trans excluded⟩
      have role := heldExclusion_idle ((broughtBack_pendExcl c r).trans pending) brought still
      rw [returnMoving_eq pre, deselectionCheck_stays (.inl (by rw [role]; decide))]
      exact role

/-- Idle and HELD before its loss, it is handed back (R55, R57). -/
theorem lostMoving_held (h : y.Consistent) (lost : y.role c = .lost) (pre : (y.car c).preLoss = some .held)
    (idle : (y.trip c).state = .none) (on : (y.car c).available = true)
    (excl : (y.car c).pendExcl = false) (desel : (y.car c).pendDesel = false)
    (m : Moves (takeRest c (returnMoving c y)) t) : t.Returned (y.Joins c) c := by
  have agrees := State.CarAgrees.of_consistent h c
  have brought : y.broughtBack c .held = handBack c (y.restored c .held) := if_pos rfl
  rw [returnMoving_quiet pre excl desel, brought] at m
  have held : (y.restored c .held).role c = .held := y.restored_role c .held
  have apart : (y.restored c .held).Apart c :=
    ⟨by rw [held]; exact ⟨by decide, by decide⟩, by rw [y.restored_trip, idle]; decide,
      agrees.not_queued_of_state (h.lost_state lost),
      not_listed_iff.2 (agrees.not_listed (by rw [lost]; decide))⟩
  have back := handBack_returned held apart
  have available : ((handBack c (y.restored c .held)).car c).available = true := by
    have only := handBack_only (OnlyDecisions.refl (y.restored c .held)) c
    refine (congrArg CarInputs.available (only.cars c)).trans ?_
    rw [y.restored_car]; exact on
  have ruled := availabilityRules_on_touched available back.role_ne
  have left := (returned_rest held apart ruled m).1
  have same : (y.restored c .held).Joins c = y.Joins c := by
    rw [State.Joins, State.Joins, y.restored_car]; rfl
  rw [same] at left
  exact left

/-- Idle and called before its loss, it is in role RECALL again away from its landing (R55, R108). -/
theorem lostMoving_recall (h : y.Consistent) (lost : y.role c = .lost)
    (running : y.plan.phase.generator = true) (motion : (y.car c).motion = .moving)
    (pre : (y.car c).preLoss = some .recall) (idle : (y.trip c).state = .none)
    (on : (y.car c).available = true) (excl : (y.car c).pendExcl = false)
    (desel : (y.car c).pendDesel = false) (phase : y.plan.phase = .recall ∨ y.plan.phase = .service)
    (away : (y.car c).position ≠ .atRecall) (m : Moves (takeRest c (returnMoving c y)) t) :
    t.role c = .recall ∧ (t.car c).powered = (y.car c).powered ∧ (t.car c).slotStart = (y.car c).slotStart := by
  have agrees := returnMoving_agrees h lost running motion
  have brought : y.broughtBack c .recall = y.restored c .recall := if_neg (by decide)
  rw [returnMoving_quiet pre excl desel, brought] at m agrees
  have record := y.restored_car c .recall
  obtain ⟨role, power, slot⟩ := recall_stays agrees (y.restored_role c .recall)
    (by rw [y.restored_trip]; exact idle) (by rw [record]; exact on) phase (by rw [record]; exact away) m
  exact ⟨role, power.trans (by rw [record]), slot.trans (by rw [record])⟩

/-! ## An idle service car, in an event that moves no figure -/

theorem GrantMove.serves (m : GrantMove s t) (role : s.role c = .service) (unqueued : c ∉ s.queue.entries) :
    t.car c = s.car c := by
  cases m with
  | select d allowed can =>
    simp only [canSelect, Bool.and_eq_true, beq_iff_eq] at can
    rw [selectCar_car, if_neg fun same => ?_]
    rw [same, can.1.1.1] at role
    cases role
  | carGrant d opened allowed candidate =>
    rw [carGrant_car, if_neg fun same => unqueued (by rw [same]; exact candidates_subset candidate)]
  | panelGrant => rfl
  | draw => rfl

theorem GrantMoves.serves (m : GrantMoves s t) (role : s.role c = .service)
    (unqueued : c ∉ s.queue.entries) : t.car c = s.car c := by
  refine (?_ : t.car c = s.car c ∧ c ∉ t.queue.entries).1
  induction m with
  | refl => exact ⟨rfl, unqueued⟩
  | tail _ last ih =>
    obtain ⟨same, out⟩ := ih
    exact ⟨(last.serves (by rw [State.role, same]; exact role) out).trans same, last.move.unqueued out⟩

/-- No pass of the controller is made, so an idle service car stays one (R122). -/
theorem closeEvent_serves (settled : s.Settled) (bills : SameAccount s x) (control : x.control = s.control)
    (sound : x.EntriesSound) (role : x.role c = .service) (unqueued : c ∉ x.queue.entries) :
    (closeEvent {} s x).car c = x.car c := by
  rw [closeEvent_calm settled bills control sound]
  have called : (advancePlan s x).car c = x.car c := by
    rcases (advancePlan_kept s x).record c with same | ⟨⟨e, he, own⟩, -⟩
    · exact same
    · refine absurd own (sound.not_listed (.inl ?_) e he)
      rw [role]; decide
  refine ((selectAndGrant_grantMoves {} s (advancePlan s x)).serves ?_ ?_).trans called
  · rw [State.role, called]; exact role
  · rw [(advancePlan_kept s x).queue]; exact unqueued

/-- Stages 2 to 4 on a service car that is available (R61, R108). -/
theorem takeRest_serves (on : (z.car c).available = true) (role : z.role c = .service) :
    takeRest c z = motionCheck c (z.updCar c fun r => { r with pendUnavail := false }) := by
  have ruled := availabilityRules_stays on fun out => by rw [role] at out; cases out
  rw [takeRest, ruled]
  refine parkingCheck_stays (((State.Touched.updCar z c false).trans (motionCheck_touched c _)).staysParked ?_)
  exact .inl (by rw [role]; decide)

theorem motionCheck_sameAccount (c : CarIx) (z : State) : SameAccount z (motionCheck c z) := by
  unfold motionCheck
  split
  · exact .parts rfl rfl rfl rfl rfl
  · exact .refl z

/-! ## Motion that the part did not permit -/

theorem State.hasNotice_noticeSupply (s : State) (k : SupplyNotice) :
    (s.noticeSupply k).hasNotice .supply k.number = true := by
  rw [State.noticeSupply, State.hasNotice, State.setNotice, State.updPort_port_same]
  cases k <;> simp [noticeBit, SupplyNotice.number]

theorem unpermitted_told (running : y.plan.phase.generator = true) (idle : (y.trip c).state = .none)
    (motion : (y.car c).motion = .moving) :
    (takeRest c (resolveReturn c y)).hasNotice .panel PanelNotice.unpermittedMotion.number = true ∧
    (takeRest c (resolveReturn c y)).hasNotice .supply SupplyNotice.unpermittedMotion.number = true := by
  have rests : y.Rests c .none y.plan.phase (y.car c).preLoss := ⟨idle, rfl, rfl⟩
  obtain ⟨q, resolved⟩ := rests.resolveReturn
  have ruled := resolved.availabilityRules (by decide)
  have only := availabilityRules_only (resolveReturn_only (.refl y) c) c
  obtain ⟨z, made⟩ : ∃ z, z = availabilityRules c (resolveReturn c y) := ⟨_, rfl⟩
  rw [← made] at ruled only
  have told : motionCheck c z = (z.noticePanel .unpermittedMotion).noticeSupply .unpermittedMotion :=
    if_pos ⟨(congrArg CarInputs.motion (only.cars c)).trans motion, by rw [ruled.phase]; exact running,
      ruled.state⟩
  have kept := parkingCheck_only (OnlyDecisions.refl (motionCheck c z)) c
  rw [takeRest, ← made]
  refine ⟨kept.hasNotice ?_, kept.hasNotice ?_⟩
  · rw [told]
    exact (OnlyDecisions.thenSupply (.refl (z.noticePanel .unpermittedMotion))).hasNotice
      (State.hasNotice_noticePanel z .unpermittedMotion)
  · rw [told]
    exact State.hasNotice_noticeSupply _ .unpermittedMotion

/-! ## START and MAINS -/

theorem free_rest (role : y.role c = .free) (off : y.plan.phase.generator = false)
    (m : Moves (takeRest c (resolveReturn c y)) t) : t.role c = .free := by
  rw [resolveReturn_other (by rw [role]; decide)] at m
  have ruled : y.Touched (availabilityRules c y) c :=
    availabilityRules_out_touched (.inl role) fun _ _ => .inr (by rw [role]; decide)
  have left := takeRest_touched ruled (.inl (by rw [role]; decide))
  exact m.free (by rw [left.plan]; exact off) (by rw [left.role]; exact role)

end Sys2Proof.Machine
end

section
/-!
PROOFS. STATE (R47, R48): the request as it is taken, each rule of O22 read off the car's record before it; and O22.
-/

namespace Sys2Proof.Machine

variable {s t : State} {c : CarIx} {u : Byte}

/-! ## The request -/

/-- A STATE as an event, its answer recorded. -/
def stateEnd (s : State) (c : CarIx) (u : Byte) : State :=
  setOutcome (.car c) .accepted
    (closeEvent {} (requestStart (.car c) s) (takeRest c (resolveReturn c (statusStart s c u))))

theorem exec_state (h : ignores s (.car c) = false) (u : Byte) :
    exec (.state c (.opened [u])) s = .next (stateEnd s c u) := by
  have named : Request.ofCode (.car c) Request.state.code = some .state := by
    simp [Request.ofCode, requestsOf, commonRequests, carRequests, Request.code]
  have run := arrive_one (r := .state) (u := u) h named (by decide) (by decide) (by decide)
    (act := closing {} (accepting (takeState c u))) fun _ => rfl
  have acted : takeState c u (requestStart (.car c) s) =
      takeRest c (resolveReturn c (statusStart s c u)) := takeState_eq c u _
  have asked : exec (.state c (.opened [u])) s = .next (arrive (.car c) .state (.opened [u]) s) := rfl
  rw [asked, run, stateEnd, closing, accepting, acted]

theorem stateEnd_moves (s : State) (c : CarIx) (u : Byte) :
    Moves (takeRest c (resolveReturn c (statusStart s c u)))
      (closeEvent {} (requestStart (.car c) s) (takeRest c (resolveReturn c (statusStart s c u)))) :=
  closeEvent_moves ..

theorem requestStart_answered (s : State) (c : CarIx) (o : ReqOutcome) :
    setOutcome (.car c) o (requestStart (.car c) s) = carAnswered c o s := by
  show setOutcome (.car c) o (carLinkUp c (s.updPort (.car c) (.opened none none))) = _
  rw [carLinkUp_updPort, setOutcome, State.updPort_updPort]
  rfl

theorem requestStart_sameAccount (s : State) (c : CarIx) : SameAccount s (requestStart (.car c) s) := by
  have opened : SameAccount s (s.updPort (.car c) (.opened none none)) := .parts rfl rfl rfl rfl rfl
  exact opened.trans (carLinkUp_sameAccount c _)

/-- Neither the record nor the restoring of a role moves what a car is charged. -/
theorem statusStart_sameAccount (s : State) (c : CarIx) (u : Byte) :
    SameAccount (requestStart (.car c) s) (statusStart s c u) :=
  .updCar (f := fun r => { r with position := positionOf u, occupied := occupiedOf u, available := availableOf u,
                                  motion := motionOf u }) rfl

theorem State.restored_sameAccount (s : State) (c : CarIx) (r : Role) : SameAccount s (s.restored c r) :=
  .updCar (f := fun q => { q with role := r, preLoss := none }) rfl

theorem takeRest_only (c : CarIx) (y : State) : OnlyDecisions y (takeRest c (resolveReturn c y)) :=
  parkingCheck_only (motionCheck_only (availabilityRules_only (resolveReturn_only (.refl y) c) c) c) c

theorem stateEnd_only (s : State) (c : CarIx) (u : Byte) :
    OnlyDecisions ((carAnswered c .accepted s).updCar c (fun r =>
      { r with position := positionOf u, occupied := occupiedOf u, available := availableOf u,
               motion := motionOf u })) (stateEnd s c u) := by
  rw [← requestStart_answered]
  exact ((takeRest_only c (statusStart s c u)).trans (stateEnd_moves s c u).only).updPort
    (setOutcome_act .accepted) (.car c)

/-- In START and MAINS the completion of the request itself makes a LOST car FREE (R56). -/
theorem statusStart_free (off : s.plan.phase.generator = false) (role : s.role c = .free ∨ s.role c = .lost)
    (u : Byte) : (statusStart s c u).role c = .free := by
  have linked : (requestStart (.car c) s).role c = .free := by
    have mains : (s.updPort (.car c) (.opened none none)).plan.phase.generator = false := off
    show ((carLinkUp c (s.updPort (.car c) (.opened none none))).car c).role = .free
    rw [carLinkUp, State.updCar_car_same, mains]
    rcases role with e | e
    · have other : ((s.updPort (.car c) (.opened none none)).car c).role = .free := e
      rw [other]; rfl
    · have lost : ((s.updPort (.car c) (.opened none none)).car c).role = .lost := e
      rw [lost]; rfl
  rw [State.role, statusStart, recordStatus, State.updCar_car_same]
  exact linked

theorem stateEnd_free (off : s.plan.phase.generator = false)
    (role : s.role c = .free ∨ s.role c = .lost) : (stateEnd s c u).role c = .free := by
  have m := stateEnd_moves s c u
  unfold stateEnd
  generalize closeEvent {} (requestStart (.car c) s) (takeRest c (resolveReturn c (statusStart s c u))) = t
    at m ⊢
  exact free_rest (t := t) (statusStart_free off role u) off m

/-! ## The record that the stages find -/

section
variable (running : s.plan.phase.generator = true)
include running

theorem statusStart_role (c : CarIx) (u : Byte) : (statusStart s c u).role c = s.role c := by
  rw [State.role, statusStart_car running]; rfl

theorem statusStart_trip (c : CarIx) (u : Byte) : (statusStart s c u).trip c = s.trip c := by
  rw [State.trip, statusStart_car running]; rfl

theorem statusStart_joins (c : CarIx) (u : Byte) : s.Joins c ↔ (statusStart s c u).Joins c := by
  rw [State.Joins, State.Joins, statusStart_car running]; rfl

theorem stateEnd_unpermitted (idle : (s.trip c).state = .none) (motion : motionOf u = .moving) :
    (stateEnd s c u).hasNotice .panel PanelNotice.unpermittedMotion.number = true ∧
    (stateEnd s c u).hasNotice .supply SupplyNotice.unpermittedMotion.number = true := by
  obtain ⟨panel, supply⟩ := unpermitted_told (y := statusStart s c u) (c := c) running
    (by rw [statusStart_trip running]; exact idle) (by rw [statusStart_car running]; exact motion)
  have moves := stateEnd_moves s c u
  unfold stateEnd setOutcome
  rw [State.hasNotice_updPort _ (setOutcome_act .accepted), State.hasNotice_updPort _ (setOutcome_act .accepted)]
  exact ⟨moves.only.hasNotice panel, moves.only.hasNotice supply⟩

/-! ## The return of a LOST car -/

theorem state_still (h : s.Consistent) (lost : s.role c = .lost) (motion : motionOf u = .still)
    (m : Moves (takeRest c (resolveReturn c (statusStart s c u))) t) :
    t.Resolved c ∧
    ((s.car c).included = false ∨ ¬ availableOf u = true →
      t.role c = .unavailable ∧ (t.car c).powered = false ∧ (t.car c).recallTimer = none) ∧
    ((s.car c).included = true → availableOf u = true →
      (s.car c).pendExcl = false → (s.car c).pendUnavail = false →
      (positionOf u = .atRecall → (s.car c).recallFailed = false → t.AtLanding c) ∧
      (positionOf u ≠ .atRecall ∨ (s.car c).recallFailed = true →
        s.HandedBack t c ∧ (t.car c).recallFailed = (s.car c).recallFailed)) := by
  have consistent := statusStart_consistent h running c u
  have record := statusStart_car running c u
  have joins := statusStart_joins running c u
  have was : (statusStart s c u).role c = .lost := (statusStart_role running c u).trans lost
  rw [resolveReturn_still was running (by rw [record]; exact motion)] at m
  refine ⟨((returnStill_resolved consistent was).takeRest).moves m, fun out => ?_,
    fun included on excl unavail => ?_⟩
  · exact lostStill_out consistent was (by rw [record]; simpa [CarRecord.reported] using out) m
  · have returns : ((statusStart s c u).car c).returns := by
      rw [record]; exact ⟨included, on, excl, unavail⟩
    refine ⟨fun landed unfailed => ?_, fun away => ?_⟩
    · exact lostStill_landed consistent was returns (by rw [record]; exact landed)
        (by rw [record]; exact unfailed) m
    · obtain ⟨back, failed⟩ := lostStill_held consistent was returns (by rw [record]; exact away) m
      exact ⟨back.handedBack joins, failed.trans (by rw [record]; rfl)⟩

theorem preLoss_live (h : s.RecordsSound) (lost : s.role c = .lost) :
    ∃ r, (s.car c).preLoss = some r ∧ r.live := by
  have some := h.preLossRole running c lost
  cases pre : (s.car c).preLoss with
  | none => rw [pre] at some; cases some
  | some r =>
    rw [pre] at some
    exact ⟨r, rfl, by revert some; cases r <;> decide⟩

theorem state_moving (h : s.Consistent) (records : s.RecordsSound) (lost : s.role c = .lost)
    (motion : motionOf u = .moving) (m : Moves (takeRest c (resolveReturn c (statusStart s c u))) t) :
    (t.car c).preLoss = none ∧ (t.trip c).state = (s.trip c).state ∧
    ((s.trip c).state.moving = true →
      some (t.role c) = (s.car c).preLoss ∧ (t.car c).powered = (s.car c).powered ∧
      c ∈ t.gate.stack ∧ (t.car c).pendExcl = (s.car c).pendExcl ∧
      (t.car c).pendUnavail = !availableOf u) ∧
    ((s.trip c).state = .none → ¬ availableOf u = true ∨ (s.car c).pendExcl = true →
      (s.car c).included = false ∨ ¬ availableOf u = true →
      t.role c = .unavailable ∧ (t.car c).powered = false) ∧
    ((s.trip c).state = .none → availableOf u = true → (s.car c).pendExcl = false →
      ((s.car c).preLoss = some .held → s.HandedBack t c) ∧
      ((s.car c).preLoss = some .recall → s.plan.phase = .recall ∨ s.plan.phase = .service →
        positionOf u ≠ .atRecall →
        t.role c = .recall ∧ (t.car c).powered = (s.car c).powered ∧
        (t.car c).slotStart = (s.car c).slotStart)) := by
  have consistent := statusStart_consistent h running c u
  have record := statusStart_car running c u
  have trip := statusStart_trip running c u
  have joins := statusStart_joins running c u
  have was : (statusStart s c u).role c = .lost := (statusStart_role running c u).trans lost
  have moving : ((statusStart s c u).car c).motion = .moving := by rw [record]; exact motion
  have on' : (statusStart s c u).plan.phase.generator = true := running
  rw [resolveReturn_moving was on' moving] at m
  obtain ⟨preLoss, state⟩ := lostMoving_kept consistent was on' moving m
  refine ⟨preLoss, state.trans (by rw [trip]), fun moves => ?_, fun idle out away => ?_,
    fun idle on excl => ⟨fun pre => ?_, fun pre phase away => ?_⟩⟩
  · have left := lostMoving_busy consistent was on' moving (by rw [trip]; exact moves) m
    rw [record] at left
    exact left
  · obtain ⟨r, pre, live⟩ := preLoss_live running records lost
    refine lostMoving_out consistent was on' moving (r := r) (by rw [record]; exact pre) live
      (by rw [trip]; exact idle) ?_ m
    rw [record]
    show availableOf u = false ∨ (s.car c).pendExcl = true ∧ (s.car c).included = false
    by_cases on : availableOf u = true
    · exact .inr ⟨out.resolve_left fun k => k on, away.resolve_right fun k => k on⟩
    · exact .inl (by simpa using on)
  · have desel : (s.car c).pendDesel = false := Bool.eq_false_iff.2 fun pending => by
      have serving := (records.pendDesel c pending).1
      simp [State.inService, lost, pre] at serving
    exact (lostMoving_held consistent was (by rw [record]; exact pre) (by rw [trip]; exact idle)
      (by rw [record]; exact on) (by rw [record]; exact excl) (by rw [record]; exact desel) m).handedBack joins
  · have desel : (s.car c).pendDesel = false := Bool.eq_false_iff.2 fun pending => by
      have serving := (records.pendDesel c pending).1
      simp [State.inService, lost, pre] at serving
    have left := lostMoving_recall consistent was on' moving (by rw [record]; exact pre)
      (by rw [trip]; exact idle) (by rw [record]; exact on) (by rw [record]; exact excl)
      (by rw [record]; exact desel) phase (by rw [record]; exact away) m
    rw [record] at left
    exact left

/-- An idle service car that returns MOVING with nothing pending is a service car still: its return moves no
figure, so the controller makes no pass (R55, R122). -/
theorem stateEnd_serves (h : s.Consistent) (settled : s.Settled) (lost : s.role c = .lost)
    (motion : motionOf u = .moving) (on : availableOf u = true)
    (excl : (s.car c).pendExcl = false) (pre : (s.car c).preLoss = some .service)
    (desel : (s.car c).pendDesel = false) :
    (stateEnd s c u).role c = .service ∧ ((stateEnd s c u).car c).powered = (s.car c).powered := by
  have consistent := statusStart_consistent h running c u
  have record := statusStart_car running c u
  have was : (statusStart s c u).role c = .lost := (statusStart_role running c u).trans lost
  have agrees := State.CarAgrees.of_consistent consistent c
  have unqueued : c ∉ (statusStart s c u).queue.entries :=
    agrees.not_queued_of_state (consistent.lost_state was)
  have resolved : resolveReturn c (statusStart s c u) = (statusStart s c u).restored c .service := by
    rw [resolveReturn_moving was running (by rw [record]; exact motion),
      returnMoving_quiet (r := .service) (by rw [record]; exact pre) (by rw [record]; exact excl)
        (by rw [record]; exact desel)]
    exact if_neg (by decide)
  have own := (statusStart s c u).restored_car c .service
  have done := takeRest_serves (z := (statusStart s c u).restored c .service) (c := c)
    (by rw [own, record]; exact on) ((statusStart s c u).restored_role c .service)
  obtain ⟨z, made⟩ : ∃ z, z = motionCheck c (((statusStart s c u).restored c .service).updCar c fun r =>
      { r with pendUnavail := false }) := ⟨_, rfl⟩
  have car (d : CarIx) : z.car d = if d = c then
      { (statusStart s c u).car c with role := .service, preLoss := none, pendUnavail := false }
      else (statusStart s c u).car d := by
    rw [made, motionCheck_car, State.restored, State.updCar_updCar, State.updCar_car]
    split
    · rename_i same; rw [same]
    · rfl
  have touched : ((statusStart s c u).restored c .service).Touched z c := by
    rw [made]
    exact (State.Touched.updCar _ c false).trans (motionCheck_touched c _)
  have sound : z.EntriesSound := by
    refine (State.EntriesSound.of_consistent consistent).of_one (d := c)
      (fun d ne => by rw [car, if_neg ne]) ?_ ?_ ?_ ?_
    · rw [touched.queue]; exact .refl _
    · rw [touched.plan]; exact .refl _
    · rw [touched.queue]; exact unqueued
    · rw [touched.plan]
      exact agrees.not_listed (by rw [was]; decide)
  have bills : SameAccount (requestStart (.car c) s) z := by
    rw [made]
    have restored := (statusStart_sameAccount s c u).trans ((statusStart s c u).restored_sameAccount c .service)
    exact (restored.trans (.updCar (f := fun r => { r with pendUnavail := false }) rfl)).trans
      (motionCheck_sameAccount c _)
  have control : z.control = (requestStart (.car c) s).control := by
    rw [made, motionCheck]
    split
    · rfl
    · rfl
  have start : (requestStart (.car c) s).Settled :=
    settled.of_same (requestStart_sameAccount s c) rfl
  have role : z.role c = .service := by rw [State.role, car, if_pos rfl]
  have left := closeEvent_serves start bills control sound role (by rw [touched.queue]; exact unqueued)
  have ends : stateEnd s c u = setOutcome (.car c) .accepted (closeEvent {} (requestStart (.car c) s) z) := by
    rw [stateEnd, resolved, done, made]
  rw [ends]
  generalize closeEvent {} (requestStart (.car c) s) z = t at left
  have same : (setOutcome (.car c) .accepted t).car c = z.car c := left
  rw [State.role, same, car, if_pos rfl, record]
  exact ⟨rfl, rfl⟩

/-! ## The availability rules -/

theorem state_unavailable (h : s.Consistent) (role : s.role c = .unavailable)
    (m : Moves (takeRest c (resolveReturn c (statusStart s c u))) t) :
    (availableOf u = true → (s.car c).included = true → (s.car c).recallFailed = false →
      s.HandedBack t c) ∧
    (¬ availableOf u = true ∨ (s.car c).included = false ∨ (s.car c).recallFailed = true →
      t.role c = .unavailable) := by
  have consistent := statusStart_consistent h running c u
  have record := statusStart_car running c u
  have joins := statusStart_joins running c u
  have was : (statusStart s c u).role c = .unavailable := (statusStart_role running c u).trans role
  rw [resolveReturn_other (by rw [was]; decide)] at m
  refine ⟨fun on included unfailed => ?_, fun out => ?_⟩
  · exact (unavailable_back consistent was (by rw [record]; exact on) (by rw [record]; exact included)
      (by rw [record]; exact unfailed) m).handedBack joins
  · exact unavailable_stays consistent was (by rw [record]; simpa [CarRecord.reported] using out) m

theorem state_withdraws (h : s.Consistent) (idle : s.role c = .held ∨ s.role c = .parked ∨
      (s.role c = .recall ∨ s.role c = .service) ∧ (s.trip c).state.still = true)
    (off : ¬ availableOf u = true) (m : Moves (takeRest c (resolveReturn c (statusStart s c u))) t) :
    s.Withdrawn t c := by
  have consistent := statusStart_consistent h running c u
  have record := statusStart_car running c u
  have role := statusStart_role running c u
  have trip := statusStart_trip running c u
  have still : (s.trip c).state.still = true := by
    rcases idle with e | e | ⟨-, still⟩
    · rw [h.idle (.inl e)]; rfl
    · rw [h.idle (.inr (.inl e))]; rfl
    · exact still
  have live : (statusStart s c u).role c ≠ .lost := by
    rw [role]
    rcases idle with e | e | ⟨e | e, -⟩ <;> rw [e] <;> decide
  rw [resolveReturn_other live] at m
  have left := withdrawn_rest (State.CarAgrees.of_consistent consistent c)
    (by rw [record]; simpa [CarRecord.reported] using off) (by rw [role, trip]; exact idle)
    (by rw [trip]; exact still) m
  exact ⟨left.role, left.unpowered, left.idle, left.unlisted, left.unqueued, left.unserved, left.slot,
    left.timer, fun waits => left.dropped (by rw [trip]; exact waits)⟩

theorem state_busy (h : s.Consistent) (role : s.role c = .recall ∨ s.role c = .service)
    (moves : (s.trip c).state.moving = true)
    (m : Moves (takeRest c (resolveReturn c (statusStart s c u))) t) :
    t.role c = s.role c ∧ (t.trip c).state = (s.trip c).state ∧
      (t.car c).pendUnavail = !availableOf u := by
  have record := statusStart_car running c u
  have same := statusStart_role running c u
  have trip := statusStart_trip running c u
  rw [resolveReturn_other (by rw [same]; rcases role with e | e <;> rw [e] <;> decide)] at m
  obtain ⟨kept, unavail, -⟩ := busy_rest
    (State.CarAgrees.of_consistent (statusStart_consistent h running c u) c) (by rw [same]; exact role)
    (by rw [trip]; exact moves) m
  exact ⟨kept.role.trans same, kept.state.trans (by rw [trip]), unavail.trans (by rw [record]; rfl)⟩

theorem state_recall (h : s.Consistent) (role : s.role c = .recall) (idle : (s.trip c).state = .none)
    (on : availableOf u = true) (phase : s.plan.phase = .recall ∨ s.plan.phase = .service)
    (m : Moves (takeRest c (resolveReturn c (statusStart s c u))) t) :
    (positionOf u = .atRecall →
      t.AtLanding c ∧ (t.car c).recallTimer = none ∧ (t.car c).slotStart = none) ∧
    (positionOf u ≠ .atRecall →
      t.role c = .recall ∧ (t.car c).powered = (s.car c).powered ∧
      (t.car c).slotStart = (s.car c).slotStart) := by
  have consistent := statusStart_consistent h running c u
  have record := statusStart_car running c u
  have trip := statusStart_trip running c u
  have was : (statusStart s c u).role c = .recall := (statusStart_role running c u).trans role
  rw [resolveReturn_other (by rw [was]; decide)] at m
  refine ⟨fun landed => ?_, fun away => ?_⟩
  · exact recall_parks consistent was (by rw [trip]; exact idle) (by rw [record]; exact on) phase
      (by rw [record]; exact landed) m
  · have left := recall_stays (State.CarAgrees.of_consistent consistent c) was (by rw [trip]; exact idle)
      (by rw [record]; exact on) phase (by rw [record]; exact away) m
    rw [record] at left
    exact left

end

/-! ## The statement -/

theorem TripState.none_of_still {st : TripState} (still : st.still = true) (quiet : st ≠ .waiting) :
    st = .none := by
  cases st <;> simp_all [TripState.still, TripState.moving]

/-- Settles O22: each clause is the rule of the role and trip that the STATE finds. -/
theorem stateRecords : Obligations.StateRecords := by
  unfold Obligations.StateRecords
  intro s c u h
  refine ⟨stateEnd s c u, exec_state h u, stateEnd_only s c u, stateEnd_free,
    fun running idle motion => stateEnd_unpermitted running idle motion,
    fun consistent records settled running => ?_⟩
  have serves := stateEnd_serves (s := s) (c := c) (u := u) running consistent settled
  have m := stateEnd_moves s c u
  unfold stateEnd at serves ⊢
  generalize closeEvent {} (requestStart (.car c) s) (takeRest c (resolveReturn c (statusStart s c u))) = t
    at m serves ⊢
  have quiet (lost : s.role c = .lost) (still : (s.trip c).state.still = true) :
      (s.trip c).state = .none := TripState.none_of_still still (consistent.lost_state lost)
  refine ⟨fun lost motion => ?_, fun lost motion => ?_, fun role => state_unavailable (t := t) running consistent role m,
    fun role off => ?_, fun role idle off => ?_, fun role moves => state_busy (t := t) running consistent role moves m,
    fun role idle on phase => ?_⟩
  · obtain ⟨resolved, out, back⟩ := state_still running consistent lost motion m
    obtain ⟨excl, unavail, desel⟩ := resolved.pending
    exact ⟨resolved.quit.idle, resolved.preLoss, resolved.quit.unstacked, resolved.quit.unheld,
      resolved.quit.spared, excl, unavail, desel, out, back⟩
  · obtain ⟨preLoss, state, busy, out, back⟩ := state_moving running consistent records lost motion m
    refine ⟨preLoss, state, busy, fun still => out (quiet lost still), fun still on excl => ?_⟩
    obtain ⟨held, recalled⟩ := back (quiet lost still) on excl
    exact ⟨held, fun pre desel => serves lost motion on excl pre desel, recalled⟩
  · have left := state_withdraws running consistent (role.imp_right .inl) off m
    exact ⟨left.role, left.unpowered, left.unlisted⟩
  · have left := state_withdraws running consistent (.inr (.inr ⟨role, idle⟩)) off m
    exact ⟨left.role, left.unpowered, left.idle, left.unqueued, left.unserved, left.slot, left.timer, left.dropped⟩
  · exact state_recall (t := t) running consistent role idle on phase m

end Sys2Proof.Machine
end

section
/-!
PROOFS. The trips invariant: the queue and the grant stack hold the cars whose trips say so, a charge is held only
where one may be, the recall list holds HELD cars, and the gate's state, holder, timers and claims agree with each other
and the phase (R28, R64, R65, R69, R78, R79, R83, R105), in a form that every act of the part keeps.
-/

namespace Sys2Proof.Machine

/-! ## One record -/

/-- A car that may put a charge on the generator: one in RECALL or SERVICE, or LOST from there (R28, R51). -/
def CarRecord.Engaged (r : CarRecord) : Prop :=
  r.role = .recall ∨ r.role = .service ∨
    r.role = .lost ∧ (r.preLoss = some .recall ∨ r.preLoss = some .service)

/-- What a car's trip and power owe its role, and the quiet phases (R20, R28, R83). -/
structure CarRecord.Charges (quiet : Bool) (r : CarRecord) : Prop where
  waits : r.trip.state = .waiting → r.role = .recall ∨ r.role = .service
  engaged : r.powered = true ∨ r.trip.state.moving = true → r.Engaged
  idle : quiet = true → r.trip.state = .none ∧ r.powered = false

/-- What these rules read of a record. -/
def CarRecord.duty (r : CarRecord) : (Role × Option Role) × Bool × TripState :=
  ((r.role, r.preLoss), r.powered, r.trip.state)

namespace CarRecord

variable {q r : CarRecord} {quiet : Bool}

theorem duty_iff : q.duty = r.duty ↔
    q.role = r.role ∧ q.preLoss = r.preLoss ∧ q.powered = r.powered ∧ q.trip.state = r.trip.state := by
  simp [duty, and_assoc]

theorem Charges.of_duty (h : r.Charges quiet) (same : q.duty = r.duty) : q.Charges quiet := by
  obtain ⟨role, preLoss, powered, state⟩ := duty_iff.1 same
  obtain ⟨waits, engaged, idle⟩ := h
  unfold Engaged at engaged
  constructor
  · rw [role, state]; exact waits
  · unfold Engaged; rw [role, preLoss, powered, state]; exact engaged
  · rw [powered, state]; exact idle

/-- A car with no trip and no power may have any role. -/
theorem Charges.of_idle (state : r.trip.state = .none) (off : r.powered = false) : r.Charges quiet where
  waits waits := absurd (state.symm.trans waits) (by decide)
  engaged charged := by
    rw [state, off] at charged
    rcases charged with e | e <;> cases e
  idle _ := ⟨state, off⟩

/-- A car in RECALL or SERVICE may have any trip outside the quiet phases. -/
theorem Charges.of_planned (role : r.role = .recall ∨ r.role = .service) (loud : quiet = false) :
    r.Charges quiet where
  waits _ := role
  engaged _ := role.elim .inl (.inr ∘ .inl)
  idle on := absurd (loud.symm.trans on) (by decide)

theorem Charges.loud (h : r.Charges quiet) (active : r.trip.state ≠ .none ∨ r.powered = true) :
    quiet = false := by
  refine Bool.eq_false_iff.2 fun on => ?_
  obtain ⟨state, off⟩ := h.idle on
  rcases active with busy | powered
  · exact busy state
  · exact absurd (off.symm.trans powered) (by decide)

/-- A car out of the roles that may hold a charge has no trip and no power. -/
theorem Charges.rests (h : r.Charges quiet) (out : ¬ r.Engaged) :
    r.trip.state = .none ∧ r.powered = false := by
  have still : ¬ r.trip.state.moving = true := fun moves => out (h.engaged (.inr moves))
  have dry : r.trip.state ≠ .waiting := fun waits => out ((h.waits waits).elim .inl (.inr ∘ .inl))
  refine ⟨?_, Bool.eq_false_iff.2 fun on => out (h.engaged (.inl on))⟩
  cases state : r.trip.state
  · rfl
  · exact absurd state dry
  · exact absurd (by rw [state]; rfl) still
  · exact absurd (by rw [state]; rfl) still

theorem not_engaged (out : r.role ≠ .recall ∧ r.role ≠ .service ∧ r.role ≠ .lost) : ¬ r.Engaged := by
  rintro (e | e | ⟨e, -⟩)
  · exact out.1 e
  · exact out.2.1 e
  · exact out.2.2 e

end CarRecord

/-! ## The gate by itself -/

/-- What the gate's own fields owe one another and the phase (R64, R65, R78, R79). -/
structure Gate.Sound (quiet : Bool) (g : Gate) : Prop where
  closed : g.state = .closed ↔ quiet = true
  car : g.state = .carStart → ∃ c, g.holder = .car c
  panel : g.state = .panelStart → g.holder = .panel
  free : g.state ≠ .carStart → g.state ≠ .panelStart → g.holder = .none
  windows : g.startTimer.isSome = (g.state == .carStart) ∧
    g.panelTimer.isSome = (g.state == .panelStart) ∧ g.recoveryTimer.isSome = (g.state == .recovery)
  held : g.heldClaim.isSome = (g.state == .panelStart)
  oneClaim : g.heldClaim = none ∨ g.pendingClaim = none
  closedClaims : g.state = .closed → g.pendingClaim = none ∧ g.fairness = none

/-- A gate with nothing in it but its state: CLOSED, OPEN, or in RECOVERY with its timer. -/
def Gate.cleared (g : Gate) (state : GateState) (timer : Timer) : Gate :=
  { g with state := state, holder := .none, startTimer := none, panelTimer := none
           recoveryTimer := timer, heldClaim := none }

namespace Gate.Sound

variable {g : Gate} {quiet : Bool}

theorem loud (h : g.Sound quiet) (state : g.state ≠ .closed) : quiet = false :=
  Bool.eq_false_iff.2 fun on => state (h.closed.2 on)

/-- The gate OPEN or in RECOVERY, with no claim held, whatever claim waits. -/
theorem cleared (state : GateState) (timer : Timer)
    (which : state = .opened ∧ timer = none ∨ state = .recovery ∧ timer.isSome = true) :
    (g.cleared state timer).Sound false := by
  rcases which with ⟨rfl, rfl⟩ | ⟨rfl, some⟩
  · constructor <;> simp [Gate.cleared]
  · constructor <;> simp [Gate.cleared, some]

/-- Claims that wait and the fairness window may change while the gate is not CLOSED. -/
theorem reclaim (h : g.Sound quiet) (state : g.state ≠ .closed) {claim : Option EntryIx}
    (one : g.heldClaim = none ∨ claim = none) (window : Timer) :
    Gate.Sound quiet { g with pendingClaim := claim, fairness := window } :=
  { h with oneClaim := one, closedClaims := fun shut => absurd shut state }

/-- The stack is not read. -/
theorem restack (h : g.Sound quiet) (stack : List CarIx) : Gate.Sound quiet { g with stack := stack } :=
  { h with }

theorem carStart (h : g.Sound quiet) (opened : g.state = .opened) (c : CarIx) (start : Running)
    (window : Timer) (stack : List CarIx) :
    Gate.Sound quiet { g with
      stack := stack, state := .carStart, holder := .car c, startTimer := some start
      fairness := window } := by
  obtain ⟨start, panel, recovery⟩ := h.windows
  have held := h.held
  have loud := h.loud (by rw [opened]; decide)
  rw [opened] at panel recovery held
  constructor <;> simp_all [h.oneClaim]

theorem panelStart (h : g.Sound quiet) (opened : g.state = .opened) (e : EntryIx) (start : Running) :
    Gate.Sound quiet { g with
      pendingClaim := none, heldClaim := some e, state := .panelStart, holder := .panel
      panelTimer := some start } := by
  obtain ⟨start, panel, recovery⟩ := h.windows
  have loud := h.loud (by rw [opened]; decide)
  rw [opened] at start recovery
  constructor <;> simp_all

end Gate.Sound

/-! ## The trips of a state -/

/-- The trips invariant. -/
structure State.TripsAgree (s : State) : Prop where
  cars : ∀ c, (s.car c).Charges s.plan.phase.quiet
  queueOnce : s.queue.entries.Nodup
  queue : ∀ c, c ∈ s.queue.entries ↔ (s.trip c).state = .waiting
  stackOnce : s.gate.stack.Nodup
  stack : ∀ c, c ∈ s.gate.stack ↔ (s.trip c).state.moving = true
  listOnce : (s.plan.recallList.map fun e => e.car).Nodup
  listed : ∀ e ∈ s.plan.recallList, s.role e.car = .held
  list : s.plan.phase.quiet = true → s.plan.recallList = []
  gate : s.gate.Sound s.plan.phase.quiet
  starts : ∀ c, s.gate.state = .carStart → s.gate.holder = .car c → (s.trip c).state = .starting

namespace State.TripsAgree

variable {s t : State} {c : CarIx}

theorem of_consistent (h : s.Consistent) : s.TripsAgree where
  cars c :=
    { waits := h.waitingRole c
      engaged := fun charged => by
        rcases h.chargedRole c charged with recalled | service | lost
        · exact .inl recalled
        · exact .inr (.inl service)
        · exact .inr (.inr ⟨lost, h.chargedLost c charged lost⟩)
      idle := fun on => (h.quiet on).2 c }
  queueOnce := h.queueNodup
  queue := h.queueExact
  stackOnce := h.stackNodup
  stack := h.stackExact
  listOnce := h.listNodup
  listed e on := (h.listHeld e on).1
  list on := (h.quiet on).1
  gate :=
    { closed := h.closed
      car := fun start => (h.holder.1 start).imp fun _ k => k.1
      panel := h.holder.2.1
      free := h.holder.2.2
      windows := h.windows
      held := h.held
      oneClaim := h.oneClaim
      closedClaims := h.closedClaims }
  starts c start holder := by
    obtain ⟨d, held, starts⟩ := h.holder.1 start
    rw [holder] at held
    cases held
    exact starts

/-- With no failed car in the recall list, the trips invariant is what a sound state promises. -/
theorem consistent (h : s.TripsAgree)
    (unfailed : ∀ e ∈ s.plan.recallList, (s.car e.car).recallFailed = false) : s.Consistent where
  queueNodup := h.queueOnce
  queueExact := h.queue
  stackNodup := h.stackOnce
  stackExact := h.stack
  waitingRole c := (h.cars c).waits
  listNodup := h.listOnce
  listHeld e on := ⟨h.listed e on, unfailed e on⟩
  chargedRole c charged := ((h.cars c).engaged charged).imp_right (.imp_right And.left)
  chargedLost c charged lost := by
    have lost' : (s.car c).role = .lost := lost
    rcases (h.cars c).engaged charged with recalled | service | ⟨-, pre⟩
    · exact absurd (recalled.symm.trans lost') (by decide)
    · exact absurd (service.symm.trans lost') (by decide)
    · exact pre
  quiet on := ⟨h.list on, fun c => (h.cars c).idle on⟩
  closed := h.gate.closed
  holder := by
    refine ⟨fun start => ?_, h.gate.panel, h.gate.free⟩
    obtain ⟨c, holder⟩ := h.gate.car start
    exact ⟨c, holder, h.starts c start holder⟩
  windows := h.gate.windows
  held := h.gate.held
  oneClaim := h.gate.oneClaim
  closedClaims := h.gate.closedClaims

/-! ## What follows for one car -/

theorem not_queued (h : s.TripsAgree) (state : (s.trip c).state ≠ .waiting) : c ∉ s.queue.entries :=
  fun queued => state ((h.queue c).1 queued)

theorem rests (h : s.TripsAgree) (out : s.role c ≠ .recall ∧ s.role c ≠ .service ∧ s.role c ≠ .lost) :
    (s.trip c).state = .none ∧ (s.car c).powered = false :=
  (h.cars c).rests (CarRecord.not_engaged out)

/-- A waiting or moving trip, or a powered car, is found in the loud phases alone. -/
theorem loud (h : s.TripsAgree) (active : (s.trip c).state ≠ .none ∨ (s.car c).powered = true) :
    s.plan.phase.quiet = false := (h.cars c).loud active

/-! ## Changes -/

/-- Nothing that these rules read changes, but that the recall list may lose entries. -/
theorem of_same (h : s.TripsAgree) (duty : ∀ c, (t.car c).duty = (s.car c).duty)
    (queue : t.queue.entries = s.queue.entries) (gate : t.gate = s.gate)
    (phase : t.plan.phase.quiet = s.plan.phase.quiet)
    (list : t.plan.recallList.Sublist s.plan.recallList) : t.TripsAgree := by
  have role (c : CarIx) : t.role c = s.role c := (CarRecord.duty_iff.1 (duty c)).1
  have state (c : CarIx) : (t.trip c).state = (s.trip c).state := (CarRecord.duty_iff.1 (duty c)).2.2.2
  constructor
  · intro c; rw [phase]; exact (h.cars c).of_duty (duty c)
  · rw [queue]; exact h.queueOnce
  · intro c; rw [queue, state]; exact h.queue c
  · rw [gate]; exact h.stackOnce
  · intro c; rw [gate, state]; exact h.stack c
  · exact (list.map _).nodup h.listOnce
  · intro e on; rw [role]; exact h.listed e (list.subset on)
  · intro on
    rw [phase] at on
    rw [h.list on] at list
    exact List.sublist_nil.1 list
  · rw [gate, phase]; exact h.gate
  · intro c; rw [gate, state]; exact h.starts c

/-- Nothing that these rules read changes. -/
theorem parts (h : s.TripsAgree) (cars : t.cars = s.cars) (queue : t.queue.entries = s.queue.entries)
    (gate : t.gate = s.gate) (phase : t.plan.phase = s.plan.phase)
    (list : t.plan.recallList.Sublist s.plan.recallList) : t.TripsAgree :=
  h.of_same (fun c => by simp only [State.car, cars]) queue gate (by rw [phase]) list

/-- One car's record changes, and its places in the queue, the stack and the gate with it. -/
theorem one (h : s.TripsAgree) (others : ∀ d, d ≠ c → (t.car d).duty = (s.car d).duty)
    (phase : t.plan.phase = s.plan.phase) (list : t.plan.recallList.Sublist s.plan.recallList)
    (listed : ∀ e ∈ t.plan.recallList, e.car = c → t.role c = .held)
    (own : (t.car c).Charges s.plan.phase.quiet) (queueOnce : t.queue.entries.Nodup)
    (queue : ∀ d, d ≠ c → (d ∈ t.queue.entries ↔ d ∈ s.queue.entries))
    (queued : c ∈ t.queue.entries ↔ (t.trip c).state = .waiting) (stackOnce : t.gate.stack.Nodup)
    (stack : ∀ d, d ≠ c → (d ∈ t.gate.stack ↔ d ∈ s.gate.stack))
    (stacked : c ∈ t.gate.stack ↔ (t.trip c).state.moving = true)
    (gate : t.gate.Sound s.plan.phase.quiet)
    (starts : ∀ d, t.gate.state = .carStart → t.gate.holder = .car d →
      if d = c then (t.trip c).state = .starting
      else s.gate.state = .carStart ∧ s.gate.holder = .car d) : t.TripsAgree := by
  have state {d : CarIx} (ne : d ≠ c) : (t.trip d).state = (s.trip d).state :=
    (CarRecord.duty_iff.1 (others d ne)).2.2.2
  constructor
  · intro d
    rw [phase]
    by_cases same : d = c
    · rw [same]; exact own
    · exact (h.cars d).of_duty (others d same)
  · exact queueOnce
  · intro d
    by_cases same : d = c
    · rw [same]; exact queued
    · rw [queue d same, state same]; exact h.queue d
  · exact stackOnce
  · intro d
    by_cases same : d = c
    · rw [same]; exact stacked
    · rw [stack d same, state same]; exact h.stack d
  · exact (list.map _).nodup h.listOnce
  · intro e on
    by_cases same : e.car = c
    · rw [same]; exact listed e on same
    · rw [State.role, (CarRecord.duty_iff.1 (others _ same)).1]; exact h.listed e (list.subset on)
  · intro on
    rw [phase] at on
    rw [h.list on] at list
    exact List.sublist_nil.1 list
  · rw [phase]; exact gate
  · intro d start holder
    have known := starts d start holder
    by_cases same : d = c
    · rw [if_pos same] at known; rw [same]; exact known
    · rw [if_neg same] at known; rw [state same]; exact h.starts d known.1 known.2

/-- One car's role or power changes. -/
theorem repost (h : s.TripsAgree) (others : ∀ d, d ≠ c → (t.car d).duty = (s.car d).duty)
    (state : (t.trip c).state = (s.trip c).state) (queue : t.queue.entries = s.queue.entries)
    (gate : t.gate = s.gate) (phase : t.plan.phase = s.plan.phase)
    (list : t.plan.recallList.Sublist s.plan.recallList)
    (listed : ∀ e ∈ t.plan.recallList, e.car = c → t.role c = .held)
    (own : (t.car c).Charges s.plan.phase.quiet) : t.TripsAgree := by
  refine h.one others phase list listed own ?_ ?_ ?_ ?_ ?_ ?_ ?_ ?_
  · rw [queue]; exact h.queueOnce
  · intro d _; rw [queue]
  · rw [queue, state]; exact h.queue c
  · rw [gate]; exact h.stackOnce
  · intro d _; rw [gate]
  · rw [gate, state]; exact h.stack c
  · rw [gate]; exact h.gate
  · intro d start holder
    rw [gate] at start holder
    split
    · rename_i same
      rw [state, ← same]; exact h.starts d start holder
    · exact ⟨start, holder⟩

/-- One car's record changes in nothing but its role and power. -/
theorem updCar (h : s.TripsAgree) {f : CarRecord → CarRecord}
    (state : (f (s.car c)).trip.state = (s.trip c).state)
    (listed : ∀ e ∈ s.plan.recallList, e.car = c → (f (s.car c)).role = .held)
    (own : (f (s.car c)).Charges s.plan.phase.quiet) : (s.updCar c f).TripsAgree :=
  h.repost (c := c) (fun d ne => by rw [State.updCar_car_ne _ _ ne])
    (by rw [State.trip, State.updCar_car_same]; exact state) rfl rfl rfl (.refl _)
    (by rw [State.role, State.updCar_car_same]; exact listed) (by rw [State.updCar_car_same]; exact own)

/-- One car's record changes in nothing that these rules read. -/
theorem edit (h : s.TripsAgree) {f : CarRecord → CarRecord} (duty : ∀ r, (f r).duty = r.duty) :
    (s.updCar c f).TripsAgree :=
  h.updCar (CarRecord.duty_iff.1 (duty _)).2.2.2
    (fun e on same => (CarRecord.duty_iff.1 (duty _)).1.trans (same ▸ h.listed e on))
    ((h.cars c).of_duty (duty _))

theorem editTrip (h : s.TripsAgree) {f : Trip → Trip} (state : ∀ x, (f x).state = x.state) :
    (s.updTrip c f).TripsAgree := h.edit fun r => by simp [CarRecord.duty, state]

/-- The gate changes, and the stack does not. -/
theorem regate (h : s.TripsAgree) {g : Gate} (stack : g.stack = s.gate.stack)
    (gate : g.Sound s.plan.phase.quiet)
    (starts : ∀ d, g.state = .carStart → g.holder = .car d →
      s.gate.state = .carStart ∧ s.gate.holder = .car d) :
    State.TripsAgree { s with gate := g } where
  cars := h.cars
  queueOnce := h.queueOnce
  queue := h.queue
  stackOnce := stack ▸ h.stackOnce
  stack c := by
    show c ∈ g.stack ↔ _
    rw [stack]; exact h.stack c
  listOnce := h.listOnce
  listed := h.listed
  list := h.list
  gate := gate
  starts c start holder := h.starts c (starts c start holder).1 (starts c start holder).2

/-! ## Ports and notices -/

theorem updPort (h : s.TripsAgree) (p : Port) (f : PortIf → PortIf) : (s.updPort p f).TripsAgree :=
  h.parts rfl rfl rfl rfl (.refl _)

theorem noticeCar (h : s.TripsAgree) (d : CarIx) (k : CarNotice) : (s.noticeCar d k).TripsAgree := by
  rcases s.noticeCar_eq d k with e | e <;> rw [e]
  · exact h
  · exact h.updPort _ _

theorem noticeSupply (h : s.TripsAgree) (k : SupplyNotice) : (s.noticeSupply k).TripsAgree :=
  h.parts rfl rfl rfl rfl (.refl _)

theorem noticePanel (h : s.TripsAgree) (k : PanelNotice) : (s.noticePanel k).TripsAgree :=
  h.parts rfl rfl rfl rfl (.refl _)

/-! ## The queue -/

/-- A waiting entry goes, and its trip with it. -/
theorem removed (h : s.TripsAgree) (waits : (s.trip c).state = .waiting) {f : Trip → Trip}
    (state : ∀ x, (f x).state = .none) : ((removeEntry c s).updTrip c f).TripsAgree := by
  have own : ((removeEntry c s).updTrip c f).car c = { s.car c with trip := f (s.trip c) } := by
    rw [State.updTrip, State.updCar_car_same, removeEntry_car]; rfl
  have trip : (((removeEntry c s).updTrip c f).trip c).state = .none := by
    rw [State.trip, own]; exact state _
  have gate : ((removeEntry c s).updTrip c f).gate = s.gate := setEntries_gate _ s
  have plan : ((removeEntry c s).updTrip c f).plan = s.plan := setEntries_plan _ s
  have queue : ((removeEntry c s).updTrip c f).queue.entries =
      s.queue.entries.filter (fun d => d != c) := setEntries_entries s _
  have loud := h.loud (.inl (by rw [waits]; decide))
  refine h.one (c := c) ?_ (by rw [plan]) (by rw [plan]) ?_ ?_ ?_ ?_ ?_ ?_ ?_ ?_ ?_ ?_
  · intro d ne; rw [State.updTrip_car_ne _ _ ne, removeEntry_car]
  · intro e on same
    rw [plan] at on
    rw [State.role, own, ← same]; exact h.listed e on
  · rw [own]; exact .of_planned ((h.cars c).waits waits) loud
  · rw [queue]; exact h.queueOnce.filter _
  · intro d ne; rw [queue]; simp [ne]
  · rw [queue, trip]; simp
  · rw [gate]; exact h.stackOnce
  · intro d _; rw [gate]
  · rw [gate, trip, h.stack c, waits]; simp [TripState.moving]
  · rw [gate]; exact h.gate
  · intro d start holder
    rw [gate] at start holder
    have running := h.starts d start holder
    rw [if_neg fun same => by rw [same, waits] at running; cases running]
    exact ⟨start, holder⟩

theorem dropEntry (h : s.TripsAgree) (c : CarIx) (r : DropReason) : (dropEntry c r s).TripsAgree := by
  unfold Machine.dropEntry
  split
  · rename_i waits
    exact (h.removed waits fun _ => rfl).noticeCar c .dropped
  · exact h

/-- After its entry is dropped a car that was not moving has no trip. -/
theorem dropEntry_idle (still : (s.trip c).state.moving = false) (r : DropReason) :
    ((Machine.dropEntry c r s).trip c).state = .none := by
  rw [dropEntry_trip]
  cases state : (s.trip c).state <;> simp_all [TripState.moving]

/-! ## The moves of a closing event -/

/-- A car with no trip is PARKED, or leaves the plan for another role. -/
theorem aside (h : s.TripsAgree) {f : CarRecord → CarRecord} (trip : ∀ r, (f r).trip = r.trip)
    (off : ∀ r, (f r).powered = false) (state : (s.trip c).state = .none) :
    (leavePlan c (s.updCar c f)).TripsAgree := by
  have own : (leavePlan c (s.updCar c f)).car c = (f (s.car c)).offPlan := by
    rw [leavePlan_car, if_pos rfl, State.updCar_car_same]; rfl
  refine h.repost (c := c) (fun d ne => ?_) ?_ rfl rfl rfl List.filter_sublist ?_ ?_
  · rw [leavePlan_car, if_neg ne, State.updCar_car_ne _ _ ne]
  · rw [State.trip, own]; exact congrArg Trip.state (trip _)
  · intro e on same; exact absurd same (not_listed_filter c s.plan.recallList e on)
  · rw [own]; exact .of_idle ((congrArg Trip.state (trip _)).trans state) (off _)

theorem park (h : s.TripsAgree) (state : (s.trip c).state = .none) : (park c s).TripsAgree :=
  h.aside (f := fun r => { r with powered := false, role := .parked }) (fun _ => rfl) (fun _ => rfl) state

theorem shorten (h : s.TripsAgree) {l : List RecallEntry} (sub : l.Sublist s.plan.recallList) :
    State.TripsAgree { s with plan := { s.plan with recallList := l } } :=
  h.parts rfl rfl rfl rfl sub

/-- A car of another role than HELD is not listed. -/
theorem not_listed (h : s.TripsAgree) (role : s.role c ≠ .held) : ∀ e ∈ s.plan.recallList, e.car ≠ c :=
  fun e on same => role (same ▸ h.listed e on)

theorem callCar (h : s.TripsAgree) (held : s.role c = .held) (loud : s.plan.phase.quiet = false)
    (unlisted : ∀ e ∈ s.plan.recallList, e.car ≠ c) : (callCar c s).TripsAgree := by
  obtain ⟨state, off⟩ := h.rests (c := c) (by rw [held]; decide)
  unfold Machine.callCar
  split
  · exact h.park state
  · exact State.TripsAgree.noticeCar
      (h.updCar rfl (fun e on same => absurd same (unlisted e on)) (.of_planned (.inl rfl) loud)) c .recallCall

theorem canCall_loud (may : canCall s = true) : s.plan.phase.quiet = false := by
  simp only [canCall, Bool.and_eq_true, Bool.or_eq_true, beq_iff_eq] at may
  rcases may.1.1.1 with phase | phase <;> rw [phase] <;> rfl

theorem noticeCars (h : s.TripsAgree) (k : CarNotice) : (s.noticeCars k).TripsAgree :=
  List.foldlRecOn (motive := State.TripsAgree) _ _ h fun _ ht d _ => ht.noticeCar d k

/-- The phase changes among the quiet ones, or among the others, and is announced. -/
theorem enterPhase (h : s.TripsAgree) {p : Phase} (quiet : p.quiet = s.plan.phase.quiet) :
    (enterPhase p s).TripsAgree := by
  have moved : State.TripsAgree { s with plan := { s.plan with phase := p } } :=
    h.of_same (fun _ => rfl) rfl rfl quiet (.refl _)
  exact ((moved.noticeSupply .phase).noticePanel .phase).noticeCars .phase

theorem endRecall (h : s.TripsAgree) (phase : s.plan.phase = .recall) : (endRecall s).TripsAgree := by
  have done : State.TripsAgree { s with plan := { s.plan with recallDone := true } } :=
    h.parts rfl rfl rfl rfl (.refl _)
  exact (done.enterPhase (p := .service) (by rw [phase]; rfl)).noticePanel .recallDone

theorem deselect (h : s.TripsAgree) (still : (s.trip c).state.moving = false) :
    (deselect c s).TripsAgree := by
  have parked := (h.dropEntry c .role).park (dropEntry_idle still .role)
  exact (parked.edit (f := fun r => { r with pendDesel := false }) fun _ => rfl).noticeCar c .park

theorem selectCar (h : s.TripsAgree) (parked : s.role c = .parked) (loud : s.plan.phase.quiet = false) :
    (selectCar c s).TripsAgree := by
  have unlisted := h.not_listed (c := c) (by rw [parked]; decide)
  have taken : (s.updCar c fun r => { r with role := .service, powered := true }).TripsAgree :=
    h.updCar rfl (fun e on same => absurd same (unlisted e on)) (.of_planned (.inr rfl) loud)
  refine State.TripsAgree.noticeCar ?_ c .selected
  exact taken.parts rfl rfl rfl rfl (.refl _)

theorem orderToLand (h : s.TripsAgree) (c : CarIx) (k : VictimKind) (n : Nat) :
    (orderToLand c k n s).TripsAgree := by
  have told := (h.editTrip (c := c) (f := fun x => { x with shedOrdered := true }) fun _ => rfl).noticeCar c .shed
  exact told.parts rfl rfl rfl rfl (.refl _)

theorem panelGrant (h : s.TripsAgree) (opened : s.gate.state = .opened) (e : EntryIx) :
    (panelGrant e s).TripsAgree := by
  have granted := h.regate (g := { s.gate with
      pendingClaim := none, heldClaim := some e, state := .panelStart, holder := .panel
      panelTimer := s.startTimer (tPstart s.store.active) }) rfl (h.gate.panelStart opened e _)
    fun _ start => by cases start
  exact granted.noticePanel .panelGrant

theorem carGrant (h : s.TripsAgree) (opened : s.gate.state = .opened) (queued : c ∈ s.queue.entries) :
    (carGrant c s).TripsAgree := by
  have waits := (h.queue c).1 queued
  have loud := h.loud (.inl (by rw [waits]; decide))
  have own : (Machine.carGrant c s).car c = (s.car c).granted := by rw [carGrant_car, if_pos rfl]
  have trip : ((Machine.carGrant c s).trip c).state = .starting := by rw [State.trip, own]; rfl
  have base : (removeEntry c (s.updCar c fun r => { r with powered := true, trip := { r.trip with
      state := .starting, verdict := .granted, startOverdue := false, shedOrdered := false } })).gate = s.gate :=
    setEntries_gate _ _
  have still : c ∉ s.gate.stack := fun on => by
    have moves := (h.stack c).1 on
    rw [waits] at moves
    cases moves
  have gate : (Machine.carGrant c s).gate = { s.gate with
      stack := s.gate.stack ++ [c], state := .carStart, holder := .car c
      startTimer := (Machine.carGrant c s).gate.startTimer, fairness := none } := by
    simp only [Machine.carGrant, State.noticeCar_gate, base]
  have timer : ∃ r, (Machine.carGrant c s).gate.startTimer = some r := by
    simp only [Machine.carGrant, State.noticeCar_gate]; exact ⟨_, rfl⟩
  obtain ⟨start, timer⟩ := timer
  rw [timer] at gate
  have entries := carGrant_entries s c
  refine h.one (c := c) ?_ (by rw [carGrant_plan]) (by rw [carGrant_plan]) ?_ ?_ ?_ ?_ ?_ ?_ ?_ ?_ ?_ ?_
  · intro d ne; rw [carGrant_car, if_neg ne]
  · intro e on same
    rw [carGrant_plan] at on
    rw [State.role, own, ← same]; exact h.listed e on
  · rw [own]; exact .of_planned ((h.cars c).waits waits) loud
  · rw [entries]; exact h.queueOnce.filter _
  · intro d ne; rw [entries]; simp [ne]
  · rw [entries, trip]; simp
  · rw [gate]; exact h.stackOnce.append (List.nodup_singleton c) (by simpa using still)
  · intro d ne; rw [gate]; simp [ne]
  · rw [gate, trip]; simp [TripState.moving]
  · rw [gate]; exact h.gate.carStart opened c start none _
  · intro d _ holder
    rw [gate] at holder
    cases holder
    rw [if_pos rfl]; exact trip

theorem overcommitBegins (h : s.TripsAgree) : (overcommitBegins s).TripsAgree := by
  refine State.TripsAgree.noticePanel (State.TripsAgree.noticeSupply ?_ _) _
  exact h.parts rfl rfl rfl rfl (.refl _)

theorem overcommitEnds (h : s.TripsAgree) : (overcommitEnds s).TripsAgree := by
  have told : State.TripsAgree (({ s with account := { s.account with overcommit := .none } }.noticeSupply
      .overEnd).noticePanel .overEnd) := by
    refine State.TripsAgree.noticePanel (State.TripsAgree.noticeSupply ?_ _) _
    exact h.parts rfl rfl rfl rfl (.refl _)
  exact told.parts rfl rfl rfl rfl (.refl _)

theorem idleVictim_still {f : Option FeederIx} (victim : idleVictim s f = some c) :
    (s.trip c).state.moving = false := by
  have found := List.find?_some victim
  simp only [Bool.and_eq_true] at found
  simpa [TripState.still] using found.1.2

/-- Each move of a closing event keeps the trips invariant. -/
theorem move (h : s.TripsAgree) (m : Move s t) : t.TripsAgree := by
  cases m with
  | call e rest list can =>
    have sub : rest.Sublist s.plan.recallList := by rw [list]; exact List.sublist_cons_self _ _
    have once := h.listOnce
    rw [list, List.map_cons, List.nodup_cons] at once
    exact (h.shorten sub).callCar (h.listed e (by rw [list]; exact List.mem_cons_self ..)) (canCall_loud can)
      fun d on same => once.1 (List.mem_map.2 ⟨d, on, same⟩)
  | endRecall ended => exact h.endRecall (recallOver_phase ended)
  | overcommitBegins => exact h.overcommitBegins
  | overcommitEnds => exact h.overcommitEnds
  | drop c r => exact h.dropEntry c r
  | deselect c f _ victim => exact h.deselect (idleVictim_still victim)
  | land c => exact h.orderToLand c _ _
  | landReverse c => exact h.orderToLand c _ _
  | select c allowed can =>
    refine h.selectCar (canSelect_parked can) ?_
    simp only [selectionAllowed, Bool.and_eq_true, beq_iff_eq] at allowed
    rw [allowed.1.1]; rfl
  | carGrant c opened _ candidate => exact h.carGrant opened (candidates_subset candidate)
  | panelGrant e opened => exact h.panelGrant opened e
  | draw n => exact h.parts rfl rfl rfl rfl (.refl _)

theorem moves (h : s.TripsAgree) (m : Moves s t) : t.TripsAgree :=
  Moves.keeps (P := State.TripsAgree) (fun _ _ k m => k.move m) m h

theorem closeEvent (h : s.TripsAgree) (k : Cause) (s0 : State) : (closeEvent k s0 s).TripsAgree :=
  h.moves (closeEvent_moves k s0 s)

end State.TripsAgree

end Sys2Proof.Machine
end

section
/-!
PROOFS. The trips invariant over the acts on one car: the gate's windows, the end of a trip, the requests of the
trip, and what makes a car leave its role or come back into the plan (R47 to R63, R68 to R76, R85 to R94, R106 to
R109, R114).
-/

namespace Sys2Proof.Machine

/-! ## The gate after a window -/

theorem Gate.recovering_eq {s : State} (held : s.gate.heldClaim = none) :
    s.recovering = s.gate.cleared .recovery (s.startTimer (tRec s.store.active)) := by
  simp only [State.recovering, Gate.cleared, held]

theorem endWindowOf_eq (c : CarIx) (s : State) :
    endWindowOf c s = { s with gate := s.gateAfterWindow c } := by
  unfold endWindowOf State.gateAfterWindow
  split <;> rfl

theorem State.gateAfterWindow_stack (s : State) (c : CarIx) :
    (s.gateAfterWindow c).stack = s.gate.stack := by
  unfold State.gateAfterWindow
  split <;> rfl

theorem State.gateAfterWindow_sound {s : State} (h : s.gate.Sound s.plan.phase.quiet) (c : CarIx) :
    (s.gateAfterWindow c).Sound s.plan.phase.quiet := by
  unfold State.gateAfterWindow
  split
  · rename_i start
    have held : s.gate.heldClaim = none := by
      have held := h.held
      rw [start.1] at held
      exact Option.not_isSome_iff_eq_none.1 (by rw [held]; decide)
    rw [Gate.recovering_eq held, h.loud (by rw [start.1]; decide)]
    exact .cleared _ _ (.inr ⟨rfl, rfl⟩)
  · exact h

/-- A car that holds the gate after another's window held it before. -/
theorem State.gateAfterWindow_holds {s : State} {c d : CarIx} (start : (s.gateAfterWindow c).state = .carStart)
    (holder : (s.gateAfterWindow c).holder = .car d) :
    d ≠ c ∧ s.gate.state = .carStart ∧ s.gate.holder = .car d := by
  unfold State.gateAfterWindow at start holder
  split at start
  · cases start
  · rename_i other
    rw [if_neg other] at holder
    exact ⟨fun same => other ⟨start, same ▸ holder⟩, start, holder⟩

theorem endTrip_eq (c : CarIx) (s : State) :
    endTrip c s = { s.updTrip c (fun t => { t with state := .none }) with gate :=
      { s.gateAfterWindow c with stack := s.gate.stack.filter (fun e => e != c) } } := by
  rw [← s.gateAfterWindow_stack c, endTrip, endWindowOf_eq]
  rfl

theorem atSpeed_eq {c : CarIx} {s : State} (role : s.role c ≠ .lost) (starts : (s.trip c).state = .starting) :
    atSpeed c s = { s.updTrip c (fun t => { t with state := .running }) with gate := s.gateAfterWindow c } := by
  rw [atSpeed, if_pos ⟨role, starts⟩, endWindowOf_eq]
  rfl

theorem earlyGrant_moves (s0 s : State) : Moves s (earlyGrant s0 s) := by
  unfold earlyGrant
  dsimp only
  split
  · exact .refl
  · split
    · exact .refl
    · exact (evaluate_moves s).trans (grantIfDue_moves s0 _)

namespace State.TripsAgree

variable {s t : State} {c : CarIx}

/-! ## The gate's windows and claims -/

/-- A car that is not queued goes on to another state of its trip, and its window ends if it holds the gate. -/
theorem tripTo (h : s.TripsAgree) {st : TripState} {stack : List CarIx} (quit : (s.trip c).state ≠ .waiting)
    (state : st ≠ .waiting) (moves : st.moving = true → (s.trip c).state.moving = true)
    (once : stack.Nodup) (others : ∀ d, d ≠ c → (d ∈ stack ↔ d ∈ s.gate.stack))
    (stacked : c ∈ stack ↔ st.moving = true) :
    State.TripsAgree { s.updTrip c (fun t => { t with state := st }) with
      gate := { s.gateAfterWindow c with stack := stack } } := by
  generalize made : { s.updTrip c (fun t => { t with state := st }) with
      gate := { s.gateAfterWindow c with stack := stack } } = t
  have car (d : CarIx) : t.car d = (s.updTrip c fun t => { t with state := st }).car d := by rw [← made]; rfl
  have own : t.car c = { s.car c with trip := { s.trip c with state := st } } := by
    rw [car]; exact State.updCar_car_same ..
  have trip : (t.trip c).state = st := by rw [State.trip, own]
  have gate : t.gate = { s.gateAfterWindow c with stack := stack } := by rw [← made]
  have queue : t.queue = s.queue := by rw [← made]; rfl
  have plan : t.plan = s.plan := by rw [← made]; rfl
  have charges := h.cars c
  refine h.one (c := c) ?_ (by rw [plan]) (by rw [plan]) ?_ ?_ (by rw [queue]; exact h.queueOnce)
    (fun _ _ => by rw [queue]) ?_ (by rw [gate]; exact once) (by rw [gate]; exact others) ?_
    (by rw [gate]; exact (State.gateAfterWindow_sound h.gate c).restack _) ?_
  · intro d ne; rw [car, State.updTrip_car_ne _ _ ne]
  · intro e on same
    rw [plan] at on
    rw [State.role, own, ← same]; exact h.listed e on
  · rw [own]
    refine ⟨fun waits => absurd waits state, fun charged => ?_, fun on => ?_⟩
    · exact charges.engaged (charged.imp_right moves)
    · obtain ⟨idle, off⟩ := charges.idle on
      refine ⟨?_, off⟩
      cases st
      · rfl
      · exact absurd rfl state
      all_goals
        have moving : (s.car c).trip.state.moving = true := moves rfl
        rw [idle] at moving; cases moving
  · rw [queue, trip]
    exact iff_of_false (h.not_queued quit) state
  · rw [gate, trip]; exact stacked
  · intro d start holder
    rw [gate] at start holder
    obtain ⟨ne, known⟩ := State.gateAfterWindow_holds (c := c) start holder
    rw [if_neg ne]; exact known

theorem atSpeed (h : s.TripsAgree) : (atSpeed c s).TripsAgree := by
  by_cases due : s.role c ≠ .lost ∧ (s.trip c).state = .starting
  · have moves : (s.trip c).state.moving = true := by rw [due.2]; rfl
    have gate : s.gateAfterWindow c = { s.gateAfterWindow c with stack := s.gate.stack } := by
      rw [← s.gateAfterWindow_stack c]
    rw [atSpeed_eq due.1 due.2, gate]
    exact h.tripTo (by rw [due.2]; decide) (by decide) (fun _ => moves) h.stackOnce (fun _ _ => Iff.rfl)
      (iff_of_true ((h.stack c).2 moves) rfl)
  · rw [Machine.atSpeed, if_neg due]; exact h

/-- A trip that is not waiting ends (R71, R72, R76). -/
theorem endTrip (h : s.TripsAgree) (state : (s.trip c).state ≠ .waiting) : (endTrip c s).TripsAgree := by
  rw [endTrip_eq]
  exact h.tripTo state (by decide) (fun moves => by cases moves) (h.stackOnce.filter _)
    (fun d ne => by simp [ne]) (by simp [TripState.moving])

theorem startWindowExpires (h : s.TripsAgree) (start : s.gate.state = .carStart) :
    (startWindowExpires s).TripsAgree := by
  unfold Machine.startWindowExpires
  split
  · rename_i d holder
    have marked : (s.updTrip d fun t => { t with startOverdue := true }).TripsAgree :=
      h.editTrip fun _ => rfl
    have window := endWindowOf_eq d (s.updTrip d fun t => { t with startOverdue := true })
    rw [endWindowOf, if_pos ⟨start, holder⟩] at window
    rw [window]
    exact (marked.regate (State.gateAfterWindow_stack ..) (State.gateAfterWindow_sound marked.gate d)
      fun e start holder => (State.gateAfterWindow_holds start holder).2).noticePanel .startOverdue
  · exact h

theorem endPanelHold (h : s.TripsAgree) (start : s.gate.state = .panelStart) :
    (endPanelHold s).TripsAgree := by
  have loud := h.gate.loud (by rw [start]; decide)
  have recovered : (s.gate.cleared .recovery (s.startTimer (tRec s.store.active))).Sound s.plan.phase.quiet := by
    rw [loud]; exact .cleared _ _ (.inr ⟨rfl, rfl⟩)
  unfold Machine.endPanelHold
  dsimp only
  split
  · exact h.regate rfl recovered fun _ start => by cases start
  · refine h.regate (g := { s.gate.cleared .recovery (s.startTimer (tRec s.store.active)) with
      fairness := s.startTimer (tFair s.store.active) }) rfl ?_ fun _ start => by cases start
    exact recovered.reclaim (by simp [Gate.cleared]) (.inl rfl) _

theorem unclaim (h : s.TripsAgree) : State.TripsAgree { s with gate := { s.gate with pendingClaim := none } } :=
  h.regate rfl { h.gate with
    oneClaim := .inr rfl, closedClaims := fun shut => ⟨rfl, (h.gate.closedClaims shut).2⟩ }
    fun _ start holder => ⟨start, holder⟩

theorem unfair (h : s.TripsAgree) : State.TripsAgree { s with gate := { s.gate with fairness := none } } :=
  h.regate rfl { h.gate with closedClaims := fun shut => ⟨(h.gate.closedClaims shut).1, rfl⟩ }
    fun _ start holder => ⟨start, holder⟩

theorem takeClaim (h : s.TripsAgree) (u : Byte) : (takeClaim u s).1.TripsAgree := by
  have claimed (loud : s.plan.phase.quiet = false) (e : EntryIx) (free : ¬ s.gate.heldClaim.isSome = true) :
      State.TripsAgree { s with gate := { s.gate with pendingClaim := some e } } := by
    have shut : s.gate.state ≠ .closed := fun shut =>
      absurd (loud.symm.trans (h.gate.closed.1 shut)) (by decide)
    exact h.regate rfl (h.gate.reclaim shut (.inl (Option.not_isSome_iff_eq_none.1 free)) _)
      fun _ start holder => ⟨start, holder⟩
  have taken (loud : s.plan.phase.quiet = false) : State.TripsAgree (match entryIxOf u with
      | none => (s, ReqOutcome.range)
      | some e =>
        if s.account.reserves[e.val] = none then (s, .notPermitted)
        else if s.gate.pendingClaim.isSome ∨ s.gate.heldClaim.isSome then (s, .notPermitted)
        else ({ s with gate := { s.gate with pendingClaim := some e } }, .accepted)).1 := by
    split
    · exact h
    · split
      · exact h
      · split
        · exact h
        · rename_i free; exact claimed loud _ fun held => free (.inr held)
  unfold Machine.takeClaim
  split
  · exact h
  · exact h
  · exact h
  all_goals rename_i phase; exact taken (by rw [phase]; rfl)

theorem releaseClaim (h : s.TripsAgree) : (releaseClaim s).1.TripsAgree := by
  unfold Machine.releaseClaim
  split
  · rename_i held
    refine h.endPanelHold ?_
    rw [h.gate.held] at held
    exact beq_iff_eq.1 held
  · split
    · exact h.unclaim
    · exact h

/-- The gate opens out of RECOVERY (R77). -/
theorem openGate (h : s.TripsAgree) (state : s.gate.state = .recovery) : (openGate s).TripsAgree := by
  have loud := h.gate.loud (by rw [state]; decide)
  have gate : (Machine.openGate s).gate = s.gate.cleared .opened none := by
    obtain ⟨start, panel, -⟩ := h.gate.windows
    have held := h.gate.held
    rw [state] at start panel held
    have start := Option.not_isSome_iff_eq_none.1 (by rw [start]; decide)
    have panel := Option.not_isSome_iff_eq_none.1 (by rw [panel]; decide)
    have held := Option.not_isSome_iff_eq_none.1 (by rw [held]; decide)
    simp only [Machine.openGate, Gate.cleared, start, panel, held]
  refine h.regate (g := (Machine.openGate s).gate) rfl ?_ fun _ start => by cases start
  rw [gate, loud]
  exact .cleared _ _ (.inl ⟨rfl, rfl⟩)

theorem takeRecovered (h : s.TripsAgree) : (takeRecovered s).TripsAgree := by
  unfold Machine.takeRecovered
  split
  · rename_i state; exact h.openGate state
  · exact h

/-! ## Changes that these rules do not read -/

theorem dropVictim (h : s.TripsAgree) : (dropVictim c s).TripsAgree := h.parts rfl rfl rfl rfl (.refl _)

theorem clearanceCheck (h : s.TripsAgree) : (clearanceCheck s).TripsAgree := by
  unfold Machine.clearanceCheck
  split
  · refine State.TripsAgree.noticeSupply ?_ .clear
    exact h.parts rfl rfl rfl rfl (.refl _)
  · exact h

theorem motionCheck (h : s.TripsAgree) : (motionCheck c s).TripsAgree := by
  unfold Machine.motionCheck
  split
  · exact (h.noticePanel .unpermittedMotion).noticeSupply .unpermittedMotion
  · exact h

theorem eitherOrder (hs : s.TripsAgree) (ht : t.TripsAgree) : (eitherOrder s t).TripsAgree := by
  obtain ⟨n, e | e⟩ := eitherOrder_cases s t <;> rw [e]
  · exact hs.parts rfl rfl rfl rfl (.refl _)
  · exact ht.parts rfl rfl rfl rfl (.refl _)

/-! ## Leaving a role -/

theorem makeUnavailable (h : s.TripsAgree) (state : (s.trip c).state = .none) :
    (makeUnavailable c s).TripsAgree := by
  rw [makeUnavailable_eq]
  refine h.aside (fun _ => rfl) (fun _ => rfl) state

theorem withdrawCar (h : s.TripsAgree) (still : (s.trip c).state.moving = false) :
    (withdrawCar c s).TripsAgree := (h.dropEntry c .role).makeUnavailable (dropEntry_idle still .role)

/-- A car out of the roles that may hold a charge is not moving. -/
theorem still (h : s.TripsAgree) (out : s.role c ≠ .recall ∧ s.role c ≠ .service ∧ s.role c ≠ .lost) :
    (s.trip c).state.moving = false := by
  rw [(h.rests out).1]; rfl

theorem applyExclusion (h : s.TripsAgree) : (applyExclusion c s).TripsAgree := by
  have marked : (s.updCar c fun r => { r with pendExcl := true }).TripsAgree := h.edit fun _ => rfl
  have idle (state : (s.trip c).state.still = true) : (Machine.withdrawCar c s).TripsAgree :=
    h.withdrawCar (by simpa [TripState.still] using state)
  unfold Machine.applyExclusion
  split
  · rename_i role; exact h.withdrawCar (h.still (by rw [role]; decide))
  · rename_i role; exact h.withdrawCar (h.still (by rw [role]; decide))
  · split
    · rename_i state; exact idle state
    · exact marked
  · split
    · rename_i state; exact idle state
    · exact marked
  · split
    · exact marked
    · exact h
  all_goals exact h

theorem notAvailable (h : s.TripsAgree) : (notAvailable c s).TripsAgree := by
  have marked : (s.updCar c fun r => { r with pendUnavail := true }).TripsAgree := h.edit fun _ => rfl
  have idle (state : (s.trip c).state.still = true) : (Machine.withdrawCar c s).TripsAgree :=
    h.withdrawCar (by simpa [TripState.still] using state)
  unfold Machine.notAvailable
  split
  · rename_i role; exact h.withdrawCar (h.still (by rw [role]; decide))
  · rename_i role; exact h.withdrawCar (h.still (by rw [role]; decide))
  · split
    · rename_i state; exact idle state
    · exact marked
  · split
    · rename_i state; exact idle state
    · exact marked
  all_goals exact h

theorem parkingCheck (h : s.TripsAgree) : (parkingCheck c s).TripsAgree := by
  unfold Machine.parkingCheck
  split
  · rename_i due
    split
    · split
      · exact h.park due.2
      · exact h
    · split
      · exact h.park due.2
      · exact h
    · split
      · exact h.park due.2
      · exact h.aside (f := fun r => { r with powered := false, role := .held }) (fun _ => rfl) (fun _ => rfl) due.2
    · exact h
  · exact h

theorem deselectionCheck (h : s.TripsAgree) : (deselectionCheck c s).TripsAgree := by
  unfold Machine.deselectionCheck
  split
  · rename_i due; exact h.deselect (by rw [due.2.2]; rfl)
  · exact h

/-! ## Coming back into the plan -/

theorem insertRecall (h : s.TripsAgree) (held : s.role c = .held) (loud : s.plan.phase.quiet = false)
    (unlisted : ∀ e ∈ s.plan.recallList, e.car ≠ c) : (insertRecall c s).TripsAgree := by
  have perm : (Machine.insertRecall c s).plan.recallList.Perm
      (⟨c, tierOf (s.car c)⟩ :: s.plan.recallList) := insertBy_perm ..
  have once : ((⟨c, tierOf (s.car c)⟩ :: s.plan.recallList).map fun e : RecallEntry => e.car).Nodup := by
    rw [List.map_cons, List.nodup_cons]
    refine ⟨fun on => ?_, h.listOnce⟩
    obtain ⟨e, on, same⟩ := List.mem_map.1 on
    exact unlisted e on same
  exact { h with
    listOnce := ((perm.map _).nodup_iff).2 once
    listed := fun e on => by
      rcases List.mem_cons.1 (perm.subset on) with rfl | on
      · exact held
      · exact h.listed e on
    list := fun on => absurd (loud.symm.trans on) (by decide) }

theorem joinPlan (h : s.TripsAgree) (held : s.role c = .held) (loud : s.plan.phase.quiet = false)
    (unlisted : ∀ e ∈ s.plan.recallList, e.car ≠ c) : (joinPlan c s).TripsAgree := by
  unfold Machine.joinPlan
  split
  · exact h.park (h.rests (by rw [held]; decide)).1
  · exact h.insertRecall held loud unlisted

theorem handBack (h : s.TripsAgree) (held : s.role c = .held)
    (unlisted : ∀ e ∈ s.plan.recallList, e.car ≠ c) : (handBack c s).TripsAgree := by
  unfold Machine.handBack
  split
  · rename_i due
    have loud : s.plan.phase.quiet = false := by rcases due.1 with e | e <;> rw [e] <;> rfl
    exact (h.joinPlan held loud unlisted).moves (runCalls_moves _)
  · exact h

/-- An UNAVAILABLE car becomes HELD and is handed back (R57). -/
theorem readmit (h : s.TripsAgree) (was : s.role c = .unavailable) :
    (Machine.handBack c (s.updCar c fun r => { r with role := .held })).TripsAgree := by
  obtain ⟨state, off⟩ := h.rests (c := c) (by rw [was]; decide)
  have unlisted := h.not_listed (c := c) (by rw [was]; decide)
  refine (h.updCar rfl (fun _ _ _ => rfl) (.of_idle state off)).handBack ?_ unlisted
  rw [State.role, State.updCar_car_same]

/-! ## The end of a trip -/

theorem endTrip_state (c : CarIx) (s : State) : ((Machine.endTrip c s).trip c).state = .none := by
  rw [State.trip, endTrip_car, if_pos rfl]

theorem tripEndStages (h : s.TripsAgree) (moves : (s.trip c).state.moving = true) :
    (tripEndStages c s).TripsAgree := by
  have ended := h.endTrip (c := c) fun waits => by rw [waits] at moves; cases moves
  refine State.TripsAgree.dropVictim ?_
  unfold applyPending
  split
  · exact (ended.dropVictim (c := c)).makeUnavailable (endTrip_state c s)
  · exact ended

theorem tripEnded (h : s.TripsAgree) (moves : (s.trip c).state.moving = true) :
    (tripEnded c s).TripsAgree := by
  have stages := h.tripEndStages moves
  have parkedFirst : (tripEndChecks c (Machine.tripEndStages c s)).TripsAgree :=
    (stages.parkingCheck (c := c)).deselectionCheck.clearanceCheck
  have grantFirst := ((stages.deselectionCheck (c := c)).moves (earlyGrant_moves s _)).parkingCheck (c := c)
  unfold Machine.tripEnded
  dsimp only
  split
  · exact (parkedFirst.closeEvent {} s).eitherOrder (grantFirst.clearanceCheck.closeEvent {} s)
  · exact parkedFirst.closeEvent {} s

theorem startFailed (h : s.TripsAgree) : (startFailed c s).TripsAgree := by
  unfold Machine.startFailed
  split
  · rename_i due; exact h.tripEnded (by rw [due.2]; rfl)
  · exact h

theorem carStopped (h : s.TripsAgree) : (carStopped c s).TripsAgree := by
  unfold Machine.carStopped
  split
  · rename_i due; exact h.tripEnded due.2
  · exact h

/-- A frozen trip ends (R54, R58). -/
theorem endFrozen (h : s.TripsAgree) (lost : s.role c = .lost) (role : Role) :
    (endFrozen c role s).TripsAgree := by
  have state : (s.trip c).state ≠ .waiting := fun waits => by
    have role : (s.car c).role = .lost := lost
    rcases (h.cars c).waits waits with e | e <;> exact absurd (role.symm.trans e) (by decide)
  rw [endFrozen_eq]
  exact (((h.endTrip state).dropVictim (c := c)).aside (f := .detached role) (fun _ => rfl) (fun _ => rfl)
    (endTrip_state c s)).clearanceCheck

/-! ## STATE -/

theorem returnStill (h : s.TripsAgree) (lost : s.role c = .lost) : (returnStill c s).TripsAgree := by
  have freed := h.endFrozen lost (s.car c).returnRole
  unfold Machine.returnStill
  dsimp only
  split
  · rename_i held
    refine freed.handBack ?_ ?_
    · rw [State.role, endFrozen_car, if_pos rfl]; exact held
    · rw [endFrozen_list]; exact not_listed_filter c _
  · exact freed

/-- The role before the loss is restored (R55). -/
theorem restored (h : s.TripsAgree) (lost : s.role c = .lost) :
    (s.updCar c fun r => { r with role := (s.car c).preLoss.getD .held, preLoss := none }).TripsAgree := by
  have unlisted := h.not_listed (c := c) (by rw [lost]; decide)
  have charges := h.cars c
  have was : (s.car c).role = .lost := lost
  refine h.updCar rfl (fun e on same => absurd same (unlisted e on)) ⟨fun waits => ?_, fun charged => ?_,
    charges.idle⟩
  · rcases charges.waits waits with e | e <;> exact absurd (was.symm.trans e) (by decide)
  · rcases charges.engaged charged with e | e | ⟨-, pre⟩
    · exact absurd (was.symm.trans e) (by decide)
    · exact absurd (was.symm.trans e) (by decide)
    · rcases pre with pre | pre
      · exact .inl (by rw [pre]; rfl)
      · exact .inr (.inl (by rw [pre]; rfl))

theorem heldExclusion (h : s.TripsAgree) : (heldExclusion c s).TripsAgree := by
  unfold Machine.heldExclusion
  split
  · exact (h.edit (c := c) (f := fun r => { r with pendExcl := false }) fun _ => rfl).applyExclusion
  · exact h

theorem returnMoving (h : s.TripsAgree) (lost : s.role c = .lost) : (returnMoving c s).TripsAgree := by
  have back := h.restored lost
  have unlisted := h.not_listed (c := c) (by rw [lost]; decide)
  unfold Machine.returnMoving
  dsimp only
  split
  · rename_i held
    refine (back.handBack ?_ unlisted).heldExclusion.deselectionCheck
    rw [State.role, State.updCar_car_same]; exact held
  · exact back.heldExclusion.deselectionCheck

theorem resolveReturn (h : s.TripsAgree) : (resolveReturn c s).TripsAgree := by
  unfold Machine.resolveReturn
  split
  · rename_i due
    split
    · exact h.returnStill due.1
    · exact h.returnMoving due.1
  · exact h

theorem nowAvailable (h : s.TripsAgree) : (nowAvailable c s).TripsAgree := by
  have cleared : (s.updCar c fun r => { r with pendUnavail := false }).TripsAgree := h.edit fun _ => rfl
  unfold Machine.nowAvailable
  dsimp only
  split
  · rename_i due; exact cleared.readmit due.1
  · exact cleared

theorem takeState (h : s.TripsAgree) (u : Byte) : (takeState c u s).TripsAgree := by
  have recorded : (recordStatus c u s).TripsAgree := h.edit fun _ => rfl
  have resolved := recorded.resolveReturn (c := c)
  have ruled : (availabilityRules c (Machine.resolveReturn c (recordStatus c u s))).TripsAgree := by
    unfold availabilityRules
    split
    · exact resolved.nowAvailable
    · exact resolved.notAvailable
  exact ruled.motionCheck.parkingCheck

/-! ## The requests of the trip -/

theorem refuseTrip (h : s.TripsAgree) (r : RefuseReason) : (refuseTrip c r s).1.TripsAgree :=
  (h.editTrip (f := fun t => { t with verdict := .refused r }) fun _ => rfl).noticeCar c .refused

theorem computeTrip (h : s.TripsAgree) (dir load : Byte) : (computeTrip c dir load s).TripsAgree :=
  h.editTrip fun _ => rfl

/-- A car in RECALL or SERVICE with no trip is admitted (R86). -/
theorem admitEntry (h : s.TripsAgree) (role : s.role c = .recall ∨ s.role c = .service)
    (state : (s.trip c).state = .none) (loud : s.plan.phase.quiet = false) : (admitEntry c s).TripsAgree := by
  have out : c ∉ s.queue.entries := h.not_queued (by rw [state]; decide)
  have unlisted := h.not_listed (c := c) (by rcases role with e | e <;> rw [e] <;> decide)
  unfold Machine.admitEntry
  extract_lets t u
  have car (d : CarIx) : u.car d = t.car d := setEntries_car _ t d
  have own : u.car c = { s.car c with trip := t.trip c } := by
    rw [car]
    show t.car c = _
    simp only [t, State.updTrip, State.trip, State.updCar_car_same]
  have trip : (u.trip c).state = .waiting := by
    rw [State.trip, car]
    simp only [t, State.updTrip, State.updCar_car_same]
  have gate : u.gate = s.gate := setEntries_gate _ t
  have plan : u.plan = s.plan := setEntries_plan _ t
  have perm : u.queue.entries.Perm (c :: s.queue.entries) := by
    rw [setEntries_entries]; exact insertBy_perm ..
  refine State.TripsAgree.parts (s := u) ?_ rfl rfl rfl rfl (.refl _)
  refine h.one (c := c) ?_ (by rw [plan]) (by rw [plan]) ?_ ?_ ?_ ?_ ?_ ?_ ?_ ?_ ?_ ?_
  · intro d ne
    rw [car]; exact congrArg _ (State.updTrip_car_ne s _ ne)
  · rw [plan]; exact fun e on same => absurd same (unlisted e on)
  · rw [own, loud]; exact .of_planned role rfl
  · exact perm.nodup_iff.2 (List.nodup_cons.2 ⟨out, h.queueOnce⟩)
  · intro d ne; rw [perm.mem_iff]; simp [ne]
  · rw [trip, perm.mem_iff]; simp
  · rw [gate]; exact h.stackOnce
  · intro d _; rw [gate]
  · rw [gate, trip, h.stack c, state]; simp [TripState.moving]
  · rw [gate]; exact h.gate
  · intro d start holder
    rw [gate] at start holder
    have running := h.starts d start holder
    rw [if_neg fun same => by rw [same, state] at running; cases running]
    exact ⟨start, holder⟩

theorem computeTrip_role (dir load : Byte) (c : CarIx) (s : State) :
    (Machine.computeTrip c dir load s).role c = s.role c := State.updTrip_role s c c _

theorem computeTrip_state (dir load : Byte) (c : CarIx) (s : State) :
    ((Machine.computeTrip c dir load s).trip c).state = (s.trip c).state := by
  rw [Machine.computeTrip, State.updTrip_trip_same]; rfl

theorem freshTrip (h : s.TripsAgree) (role : s.role c = .recall ∨ s.role c = .service)
    (state : (s.trip c).state = .none) (loud : s.plan.phase.quiet = false) (dir load : Byte) :
    (freshTrip c dir load s).1.TripsAgree := by
  have computed := h.computeTrip (c := c) dir load
  unfold Machine.freshTrip
  dsimp only
  split
  · exact computed.refuseTrip _
  · exact computed.admitEntry (by rw [computeTrip_role]; exact role) (by rw [computeTrip_state]; exact state) loud

theorem updateTrip (h : s.TripsAgree) (waits : (s.trip c).state = .waiting) (dir load : Byte) :
    (updateTrip c dir load s).1.TripsAgree := by
  have computed := h.computeTrip (c := c) dir load
  unfold Machine.updateTrip
  dsimp only
  split
  · exact (computed.removed (by rw [computeTrip_state]; exact waits) fun _ => rfl).refuseTrip _
  · exact computed

theorem takeTrip (h : s.TripsAgree) (dir load : Byte) : (takeTrip c dir load s).1.TripsAgree := by
  have screened (loud : s.plan.phase.quiet = false) : State.TripsAgree (
      if s.role c ≠ .recall ∧ s.role c ≠ .service then Machine.refuseTrip c .notPermitted s
      else
        match (s.trip c).state with
        | .starting | .running => Machine.refuseTrip c .busy s
        | .waiting => Machine.updateTrip c dir load s
        | .none => Machine.freshTrip c dir load s).1 := by
    split
    · exact h.refuseTrip _
    · rename_i role
      split
      · exact h.refuseTrip _
      · exact h.refuseTrip _
      · rename_i waits; exact h.updateTrip waits dir load
      · rename_i state
        exact h.freshTrip (by by_contra other; exact role (not_or.1 other)) state loud dir load
  unfold Machine.takeTrip
  split
  · exact h
  · exact h
  · exact h.refuseTrip _
  · exact h.refuseTrip _
  all_goals rename_i phase; exact screened (by rw [phase]; rfl)

theorem withdrawTrip (h : s.TripsAgree) : (withdrawTrip c s).TripsAgree := by
  unfold Machine.withdrawTrip
  split
  · rename_i waits; exact h.removed waits fun _ => rfl
  · exact h

end State.TripsAgree

end Sys2Proof.Machine
end

section
/-!
PROOFS. The trips invariant over a car's link, inclusion, release, recall supervision, SELECT, the phases, a new
active table and a reset (R43, R50 to R52, R56, R58 to R60, R98 to R105, R109, R113 to R117, R152, R156).
-/

namespace Sys2Proof.Machine

namespace State.TripsAgree

variable {s t : State} {c : CarIx}

/-! ## A car's link -/

theorem carLinkUp (h : s.TripsAgree) : (carLinkUp c s).TripsAgree := by
  have charges := h.cars c
  unfold Machine.carLinkUp
  by_cases free : s.role c = .lost ∧ s.plan.phase.generator = false
  · have lost : (s.car c).role = .lost := free.1
    have unlisted := h.not_listed (c := c) (by rw [free.1]; decide)
    obtain ⟨state, off⟩ := charges.idle (Phase.quiet_of_generator free.2)
    refine h.updCar ?_ (fun e on same => absurd same (unlisted e on)) (.of_idle ?_ ?_)
    all_goals dsimp only; rw [if_pos ⟨lost, free.2⟩]
    · rfl
    · exact state
    · exact off
  · have kept : ¬ ((s.car c).role = Role.lost ∧ s.plan.phase.generator = false) := free
    have duty : (if (s.car c).role = Role.lost ∧ s.plan.phase.generator = false then
        { s.car c with link := .up, linkTimer := s.startTimer (tLink s.store.active), role := .free, preLoss := none }
        else { s.car c with link := .up, linkTimer := s.startTimer (tLink s.store.active) }).duty =
        (s.car c).duty := by rw [if_neg kept]; rfl
    obtain ⟨role, -, -, state⟩ := CarRecord.duty_iff.1 duty
    exact h.updCar state (fun e on same => role.trans (same ▸ h.listed e on)) (charges.of_duty duty)

/-- A car becomes LOST, its role before kept as its pre-loss role (R51). -/
theorem lose (h : s.TripsAgree) (state : (s.trip c).state ≠ .waiting) (role : s.role c ≠ .lost)
    (unlisted : ∀ e ∈ s.plan.recallList, e.car ≠ c) :
    (s.updCar c fun r => { r with preLoss := some r.role, role := .lost }).TripsAgree := by
  have charges := h.cars c
  refine h.updCar rfl (fun e on same => absurd same (unlisted e on))
    ⟨fun waits => absurd waits state, fun charged => ?_, charges.idle⟩
  rcases charges.engaged charged with e | e | ⟨e, -⟩
  · exact .inr (.inr ⟨rfl, .inl (congrArg some e)⟩)
  · exact .inr (.inr ⟨rfl, .inr (congrArg some e)⟩)
  · exact absurd e role

theorem freezeCar (h : s.TripsAgree) : (freezeCar c s).TripsAgree := by
  have dropped := h.dropEntry c .link
  have cut := dropped.shorten (l := (Machine.dropEntry c .link s).plan.recallList.filter fun e => e.car != c)
    List.filter_sublist
  have state : ((Machine.dropEntry c .link s).trip c).state ≠ .waiting := dropEntry_state c .link s
  unfold Machine.freezeCar
  refine State.TripsAgree.noticePanel ?_ .carLost
  dsimp only
  split
  · exact cut
  · rename_i role
    exact cut.lose state role (not_listed_filter c _)

theorem loseCarLink (h : s.TripsAgree) : (loseCarLink c s).TripsAgree := by
  have cut : (s.updCar c fun r => { r with link := .lost, linkTimer := none }).TripsAgree := h.edit fun _ => rfl
  unfold Machine.loseCarLink
  dsimp only
  split
  · exact cut.freezeCar
  · exact cut

/-! ## Inclusion and release -/

theorem excludeCar (h : s.TripsAgree) : (excludeCar c s).TripsAgree := by
  unfold Machine.excludeCar
  split
  · exact ((h.edit (c := c) (f := fun r => { r with included := false }) fun _ => rfl).noticeCar c
      .excluded).applyExclusion
  · exact h

theorem admitCar (h : s.TripsAgree)
    (failed : (s.car c).recallFailed = true → ∀ e ∈ s.plan.recallList, e.car ≠ c) :
    (admitCar c s).TripsAgree := by
  have admitted : (s.updCar c fun r =>
      { r with included := true, recallFailed := false, pendExcl := false }).TripsAgree := h.edit fun _ => rfl
  unfold Machine.admitCar
  dsimp only
  split
  · rename_i back; exact admitted.readmit back.1
  · split
    · rename_i back; exact admitted.handBack back.1 (failed back.2)
    · exact admitted

theorem takeInclude (h : s.TripsAgree)
    (failed : ∀ e ∈ s.plan.recallList, (s.car e.car).recallFailed = false) (ix code : Byte) :
    (takeInclude ix code s).1.TripsAgree := by
  unfold Machine.takeInclude
  split
  · exact h
  · split
    · exact h
    · split
      · exact h.excludeCar
      · refine h.admitCar fun set e on same => ?_
        rw [← same, failed e on] at set
        cases set

theorem takeRelease (h : s.TripsAgree) (ix : Byte) : (takeRelease ix s).1.TripsAgree := by
  unfold Machine.takeRelease
  split
  · exact h
  · rename_i c _
    split
    · exact h
    · rename_i lost
      have lost : s.role c = .lost := by by_contra other; exact lost (.inr other)
      split
      · exact h.endFrozen lost _
      · rename_i off
        have quiet := Phase.quiet_of_generator (Bool.not_eq_true _ ▸ off)
        have unlisted := h.not_listed (c := c) (by rw [lost]; decide)
        obtain ⟨state, off⟩ := (h.cars c).idle quiet
        exact h.updCar (f := fun r => { r with role := .free, preLoss := none }) rfl
          (fun e on same => absurd same (unlisted e on)) (.of_idle state off)

/-! ## Recall supervision and SELECT -/

theorem recallExpires (h : s.TripsAgree) : (recallExpires c s).TripsAgree := by
  have told : ((s.updCar c fun r => { r with recallTimer := none }).noticePanel .recallFailed).TripsAgree :=
    (h.edit (f := fun r => { r with recallTimer := none }) fun _ => rfl).noticePanel .recallFailed
  unfold Machine.recallExpires
  dsimp only
  generalize (s.updCar c fun r => { r with recallTimer := none }).noticePanel .recallFailed = v at told
  split
  · exact told.editTrip fun _ => rfl
  · rename_i still
    have still : (v.trip c).state.moving = false := Bool.eq_false_iff.2 still
    split
    · rename_i lost
      refine told.aside (fun _ => rfl) (fun _ => rfl) ?_
      have was : (v.car c).role = .lost := lost
      cases state : (v.trip c).state
      · rfl
      · rcases (told.cars c).waits state with e | e <;> exact absurd (was.symm.trans e) (by decide)
      all_goals rw [state] at still; cases still
    · exact (told.dropEntry c .role).aside (fun _ => rfl) (fun _ => rfl) (dropEntry_idle still .role)

theorem leaveOut (h : s.TripsAgree) : (leaveOut s c).TripsAgree := by
  have marked : (s.updCar c fun r => { r with pendDesel := true }).TripsAgree := h.edit fun _ => rfl
  unfold Machine.leaveOut
  split
  · exact h
  · split
    · split
      · rename_i state; exact h.deselect (by simpa [TripState.still] using state)
      · exact marked
    · split
      · exact marked
      · exact h

/-- Pending deselections are cleared, of all cars or of the ones listed (R113). -/
theorem clearDeselections (h : s.TripsAgree) (p : CarIx → Bool) :
    (s.updAllCars fun c r => if p c then { r with pendDesel := false } else r).TripsAgree := by
  refine h.of_same (fun c => ?_) rfl rfl rfl (.refl _)
  rw [State.updAllCars_car]
  split <;> rfl

theorem takeSelect (h : s.TripsAgree) (args : List Byte) : (takeSelect args s).TripsAgree := by
  unfold Machine.takeSelect
  dsimp only
  split
  · exact (h.clearDeselections fun _ => true).parts rfl rfl rfl rfl (.refl _)
  · have cleared := h.clearDeselections fun c => (manualListOf s (args.drop 1)).contains c
    have listed := State.TripsAgree.parts (t := { (s.updAllCars fun c r =>
        if (manualListOf s (args.drop 1)).contains c then { r with pendDesel := false } else r) with
          plan := { s.plan with mode := .manual, manualList := manualListOf s (args.drop 1) } })
      cleared rfl rfl rfl rfl (.refl _)
    split
    · exact List.foldlRecOn allCars _ listed fun _ ht d _ => ht.leaveOut
    · exact listed

theorem takeReserve (h : s.TripsAgree) (entry : Byte) (amount : Nat) :
    (takeReserve entry amount s).1.TripsAgree := by
  unfold Machine.takeReserve
  split
  · exact h
  · dsimp only
    split
    · exact h.unclaim.parts rfl rfl rfl rfl (.refl _)
    · exact h.parts rfl rfl rfl rfl (.refl _)

theorem offerStep (h : s.TripsAgree) (args : List Byte) : (offerStep args s).TripsAgree := by
  have latched : State.TripsAgree { s with account := latchOffer args s.account } :=
    h.parts rfl rfl rfl rfl (.refl _)
  exact latched.closeEvent {} s

/-! ## An empty part -/

/-- With every car idle and every list empty only the gate is left to agree with the phase. -/
theorem of_empty (cars : ∀ c, (t.trip c).state = .none ∧ (t.car c).powered = false)
    (queue : t.queue.entries = []) (stack : t.gate.stack = []) (list : t.plan.recallList = [])
    (gate : t.gate.Sound t.plan.phase.quiet) (idle : t.gate.state ≠ .carStart) : t.TripsAgree where
  cars c := .of_idle (cars c).1 (cars c).2
  queueOnce := by rw [queue]; exact List.nodup_nil
  queue c := by rw [queue, (cars c).1]; simp
  stackOnce := by rw [stack]; exact List.nodup_nil
  stack c := by rw [stack, (cars c).1]; simp [TripState.moving]
  listOnce := by rw [list]; exact List.nodup_nil
  listed e on := by rw [list] at on; cases on
  list _ := list
  gate := gate
  starts _ start := absurd start idle

/-- In START, MAINS and OUTAGE every car is idle and every list empty. -/
theorem empty (h : s.TripsAgree) (quiet : s.plan.phase.quiet = true) :
    (∀ c, (s.trip c).state = .none ∧ (s.car c).powered = false) ∧ s.queue.entries = [] ∧
    s.gate.stack = [] ∧ s.plan.recallList = [] := by
  have cars (c : CarIx) := (h.cars c).idle quiet
  refine ⟨cars, List.eq_nil_iff_forall_not_mem.2 fun c on => ?_,
    List.eq_nil_iff_forall_not_mem.2 fun c on => ?_, h.list quiet⟩
  · exact absurd ((cars c).1.symm.trans ((h.queue c).1 on)) (by decide)
  · have moves := (h.stack c).1 on
    rw [show (s.trip c).state = .none from (cars c).1] at moves
    cases moves

/-- A CLOSED gate has nothing in it (R65). -/
theorem closeGate_sound (s : State) : (closeGate s).gate.Sound true := by
  constructor <;> simp [Machine.closeGate]

/-- A gate that was CLOSED opens with nothing in it (R65). -/
theorem openGate_sound (h : s.gate.Sound true) : (Machine.openGate s).gate.Sound false := by
  have shut := h.closed.2 rfl
  obtain ⟨start, panel, -⟩ := h.windows
  have held := h.held
  rw [shut] at start panel held
  have start := Option.not_isSome_iff_eq_none.1 (by rw [start]; decide)
  have panel := Option.not_isSome_iff_eq_none.1 (by rw [panel]; decide)
  have held := Option.not_isSome_iff_eq_none.1 (by rw [held]; decide)
  have gate : (Machine.openGate s).gate = s.gate.cleared .opened none := by
    simp only [Machine.openGate, Gate.cleared, start, panel, held]
  rw [gate]
  exact .cleared _ _ (.inl ⟨rfl, rfl⟩)

/-! ## The phases -/

/-- A phase announced changes nothing but the phase and the notices (R97). -/
theorem enterPhase_gate (p : Phase) (s : State) : (Machine.enterPhase p s).gate = s.gate := by
  unfold Machine.enterPhase State.noticeCars
  exact List.foldlRecOn (motive := fun u : State => u.gate = s.gate) _ _ rfl
    fun u hu d _ => (State.noticeCar_gate u d .phase).trans hu

theorem giveRole_keeps (r : CarRecord) : (giveRole r).trip = r.trip ∧ (giveRole r).powered = r.powered := by
  unfold giveRole
  split <;> exact ⟨rfl, rfl⟩

/-- A quiet phase is left, or kept, with every car idle; the gate is CLOSED or opens (R65, R98, R102). -/
theorem giveRoles_idle (h : s.TripsAgree) (quiet : s.plan.phase.quiet = true) (p : Phase) (c : CarIx) :
    ((giveRoles (Machine.enterPhase p s)).trip c).state = .none ∧
      ((giveRoles (Machine.enterPhase p s)).car c).powered = false := by
  obtain ⟨state, off⟩ := (h.empty quiet).1 c
  rw [State.trip, giveRoles_car, enterPhase_car]
  split
  · obtain ⟨trip, powered⟩ := giveRole_keeps (s.car c)
    rw [trip, powered]; exact ⟨state, off⟩
  · exact ⟨state, off⟩

theorem enterOutage (h : s.TripsAgree) (quiet : s.plan.phase.quiet = true) : (enterOutage s).TripsAgree := by
  have idle := h.giveRoles_idle quiet .outage
  obtain ⟨-, queue, -, list⟩ := h.empty quiet
  have plan := enterPhase_plan .outage s
  have entries := enterPhase_entries .outage s
  unfold Machine.enterOutage
  generalize Machine.enterPhase .outage s = v at idle plan entries
  refine of_empty (fun c => ?_) (entries.trans queue) rfl ((congrArg Plan.recallList plan).trans list) ?_
    (fun start => by cases start)
  · rw [State.trip, clearRecallFailed_car, giveRoles_car]
    have idle := idle c
    rw [State.trip, giveRoles_car] at idle
    exact idle
  · have now : (clearRecallFailed (giveRoles (Machine.closeGate v))).plan.phase = .outage :=
      congrArg Plan.phase plan
    rw [now]; exact closeGate_sound v

/-- The gate opens on an empty part that leaves the quiet phases (R65). -/
theorem openedFrom {v : State} (idle : ∀ c, (v.trip c).state = .none ∧ (v.car c).powered = false)
    (queue : v.queue.entries = []) (stack : v.gate.stack = []) (list : v.plan.recallList = [])
    (gate : v.gate.Sound true) (loud : v.plan.phase.quiet = false) : (Machine.openGate v).TripsAgree :=
  of_empty idle queue stack list
    (by rw [show (Machine.openGate v).plan = v.plan from rfl, loud]; exact openGate_sound gate)
    fun start => by cases start

theorem giveRoles_rest (v : State) : (giveRoles v).gate = v.gate ∧ (giveRoles v).plan = v.plan ∧
    (giveRoles v).queue = v.queue := ⟨rfl, rfl, rfl⟩

theorem enterReturnFromStart (h : s.TripsAgree) (quiet : s.plan.phase.quiet = true) :
    (enterReturnFromStart s).TripsAgree := by
  have idle := h.giveRoles_idle quiet .returning
  obtain ⟨-, queue, stack, list⟩ := h.empty quiet
  have gate := enterPhase_gate .returning s
  have plan := enterPhase_plan .returning s
  have entries := enterPhase_entries .returning s
  unfold Machine.enterReturnFromStart
  generalize Machine.enterPhase .returning s = v at idle gate plan entries
  obtain ⟨gateKept, planKept, queueKept⟩ := giveRoles_rest v
  have opened : (Machine.openGate (giveRoles v)).TripsAgree := by
    refine openedFrom idle ?_ ?_ ?_ ?_ ?_
    · rw [queueKept, entries, queue]
    · rw [gateKept, gate, stack]
    · rw [planKept, plan]; exact list
    · rw [gateKept, gate]; exact quiet ▸ h.gate
    · rw [planKept, plan]; rfl
  refine State.TripsAgree.noticeSupply ?_ .clear
  exact opened.parts rfl rfl rfl rfl (.refl _)

/-- A car whose entry was to be dropped is not queued after the walk, and no car has joined. -/
theorem dropWalk (l : List CarIx) {s : State} (h : s.TripsAgree) (r : DropReason) :
    (l.foldl (fun t c => Machine.dropEntry c r t) s).TripsAgree ∧
    (l.foldl (fun t c => Machine.dropEntry c r t) s).queue.entries.Sublist s.queue.entries ∧
    ∀ c ∈ l, c ∉ (l.foldl (fun t c => Machine.dropEntry c r t) s).queue.entries := by
  induction l generalizing s with
  | nil => exact ⟨h, .refl _, fun _ on => by cases on⟩
  | cons d l ih =>
    have dropped := h.dropEntry d r
    obtain ⟨agrees, sub, out⟩ := ih dropped
    refine ⟨agrees, sub.trans (dropEntry_sublist s d r), fun c on => ?_⟩
    rcases List.mem_cons.1 on with rfl | on
    · exact fun queued => dropped.not_queued (dropEntry_state c r s) (sub.subset queued)
    · exact out c on

theorem dropAllEntries (h : s.TripsAgree) : (dropAllEntries s).TripsAgree := by
  obtain ⟨agrees, sub, out⟩ := dropWalk s.queue.entries h .phase
  unfold Machine.dropAllEntries
  generalize s.queue.entries.foldl (fun t c => Machine.dropEntry c .phase t) s = v at agrees sub out
  have none : v.queue.entries = [] :=
    List.eq_nil_iff_forall_not_mem.2 fun c on => out c (sub.subset on) on
  exact agrees.parts (setEntries_cars [] v) (by rw [setEntries_entries, none]) (setEntries_gate [] v)
    (by rw [setEntries_plan]) (by rw [setEntries_plan])

/-- The generator is left for MAINS or OUTAGE with every car idle (R103, R104). -/
theorem generatorLeft {f : CarRecord → CarRecord} {v : State} {p : Phase} (phase : v.plan.phase = p)
    (quiet : p.quiet = true) (none : v.queue.entries = [])
    (idle : ∀ r, (f r).trip.state = .none ∧ (f r).powered = false) : (generatorLeft f v).TripsAgree := by
  refine of_empty (fun c => ?_) none rfl rfl ?_ (by intro start; cases start)
  · rw [State.trip, generatorLeft_car]; exact idle _
  · have now : (Machine.generatorLeft f v).plan.phase = p := phase
    rw [now, quiet]; exact closeGate_sound v

theorem loseGenerator_idle (r : CarRecord) :
    (loseGenerator r).trip.state = .none ∧ (loseGenerator r).powered = false := by
  unfold loseGenerator
  dsimp only
  split
  · exact ⟨rfl, rfl⟩
  · split <;> exact ⟨rfl, rfl⟩
  · split <;> exact ⟨rfl, rfl⟩

theorem enterMains (s : State) : (enterMains s).TripsAgree := by
  rw [enterMains_eq]
  exact generatorLeft (p := .mains) (by rw [emptied_plan]) rfl (emptied_entries _ _) fun _ => ⟨rfl, rfl⟩

theorem generatorLoss (s : State) : (generatorLoss s).TripsAgree := by
  rw [generatorLoss_eq]
  exact generatorLeft (p := .outage) (by rw [emptied_plan]) rfl (emptied_entries _ _) loseGenerator_idle

/-- An idle car in recall becomes HELD; every other keeps its role (R115). -/
theorem settleForReturn_charges {r : CarRecord} {quiet : Bool} (h : r.Charges quiet) :
    (settleForReturn r).Charges quiet := by
  unfold settleForReturn
  split
  · rename_i state
    split
    · exact .of_idle state rfl
    · split
      · exact .of_idle state rfl
      · exact h
  · exact h

theorem settleForReturn_keeps (r : CarRecord) : (settleForReturn r).trip = r.trip ∧
    (r.role = .held → (settleForReturn r).role = .held) := by
  unfold settleForReturn
  split
  · split
    · rename_i role; exact ⟨rfl, fun _ => rfl⟩
    · split
      · rename_i role; exact ⟨rfl, fun held => absurd (held.symm.trans role.1) (by decide)⟩
      · exact ⟨rfl, id⟩
  · exact ⟨rfl, id⟩

theorem returnBegun (h : s.TripsAgree) : (returnBegun s).TripsAgree := by
  have car (c : CarIx) : (Machine.returnBegun s).car c = settleForReturn (s.car c) := returnBegun_car s c
  have trip (c : CarIx) : (Machine.returnBegun s).trip c = s.trip c := by
    rw [State.trip, car, (settleForReturn_keeps _).1]; rfl
  exact
    { cars := fun c => by rw [car]; exact settleForReturn_charges (h.cars c)
      queueOnce := h.queueOnce
      queue := fun c => by rw [trip]; exact h.queue c
      stackOnce := h.stackOnce
      stack := fun c => by rw [trip]; exact h.stack c
      listOnce := h.listOnce
      listed := fun e on => by rw [State.role, car]; exact (settleForReturn_keeps _).2 (h.listed e on)
      list := h.list
      gate := h.gate
      starts := fun c => by rw [trip]; exact h.starts c }

theorem enterReturn (h : s.TripsAgree) (loud : s.plan.phase.quiet = false) : (enterReturn s).TripsAgree := by
  rw [enterReturn_eq]
  exact (h.enterPhase (p := .returning) loud.symm).dropAllEntries.returnBegun.clearanceCheck

theorem joinPlan_phase (c : CarIx) (s : State) : (Machine.joinPlan c s).plan.phase = s.plan.phase := by
  unfold Machine.joinPlan; split <;> rfl

/-- HELD cars that are not listed are taken into the plan one after another (R105, R117). -/
theorem listing {p : State → CarIx → Prop} {dec : ∀ t c, Decidable (p t c)}
    (due : ∀ t c, p t c → t.role c = .held) (l : List CarIx) (once : l.Nodup) :
    ∀ {s : State}, s.TripsAgree → s.plan.phase.quiet = false →
      (∀ t c, p t c → c ∈ l → (∀ e ∈ t.plan.recallList, e.car = c → e ∈ s.plan.recallList) →
        ∀ e ∈ t.plan.recallList, e.car ≠ c) →
      (l.foldl (fun t c => if p t c then Machine.joinPlan c t else t) s).TripsAgree := by
  induction l with
  | nil => exact fun h _ _ => h
  | cons c l ih =>
    intro s h loud fresh
    obtain ⟨new, once⟩ := List.nodup_cons.1 once
    rw [List.foldl_cons]
    split
    · rename_i held
      have unlisted := fresh s c held (List.mem_cons_self ..) fun e on _ => on
      refine ih once (h.joinPlan (due _ _ held) loud unlisted) (by rw [joinPlan_phase]; exact loud)
        fun t d held on old => fresh t d held (List.mem_cons_of_mem _ on) fun e he same => ?_
      rcases State.RecordsAgree.joinPlan_listed c s e (old e he same) with own | was
      · exact absurd on (by rw [← same, own]; exact new)
      · exact was
    · exact ih once h loud fun t d held on old => fresh t d held (List.mem_cons_of_mem _ on) old

theorem settleExpires (h : s.TripsAgree) (phase : s.plan.phase = .outage) : (settleExpires s).TripsAgree := by
  have quiet : s.plan.phase.quiet = true := by rw [phase]; rfl
  obtain ⟨idle, queue, stack, list⟩ := h.empty quiet
  have gate := enterPhase_gate .recall (stopSettle s)
  have plan := enterPhase_plan .recall (stopSettle s)
  have entries := enterPhase_entries .recall (stopSettle s)
  have car := enterPhase_car .recall (stopSettle s)
  unfold Machine.settleExpires buildList
  generalize Machine.enterPhase .recall (stopSettle s) = v at gate plan entries car
  have loud : v.plan.phase.quiet = false := by rw [plan]; rfl
  have opened : (Machine.openGate v).TripsAgree := by
    refine openedFrom (fun c => ?_) (entries.trans queue) ?_ (by rw [plan]; exact list) ?_ loud
    · rw [State.trip, car]; exact idle c
    · rw [gate]; exact stack
    · rw [gate]; exact quiet ▸ h.gate
  refine listing (p := fun t c => t.role c = .held ∧ (t.car c).recallFailed = false) (fun _ _ due => due.1)
    allCars allCars_nodup (opened.shorten (List.nil_sublist _)) loud fun t c _ _ old e on same => ?_
  cases old e on same

theorem withdrawReturn (h : s.TripsAgree) (phase : s.plan.phase = .returning) :
    (withdrawReturn s).TripsAgree := by
  have withdrawn : State.TripsAgree { s with
      plan := { s.plan with clearance := .notClear, returnTimer := none } } := h.parts rfl rfl rfl rfl (.refl _)
  have quiet : (if s.plan.recallDone then Phase.service else .recall).quiet = false := by split <;> rfl
  have loud : s.plan.phase.quiet = false := by rw [phase]; rfl
  have entered := withdrawn.enterPhase (quiet.trans loud.symm)
  unfold Machine.withdrawReturn
  dsimp only
  refine listing (p := fun t c => t.role c = .held ∧ (t.car c).recallFailed = false ∧ Machine.listed t c = false)
    (fun _ _ due => due.1) allCars allCars_nodup entered (by rw [enterPhase_plan]; exact quiet)
    fun t c due _ _ => not_listed_iff.1 due.2.2

theorem stopSettle (h : s.TripsAgree) : (stopSettle s).TripsAgree := h.parts rfl rfl rfl rfl (.refl _)

theorem startSettle (h : s.TripsAgree) : (startSettle s).TripsAgree := by
  unfold Machine.startSettle
  split
  · exact h
  · exact h.parts rfl rfl rfl rfl (.refl _)

/-- A supply report moves the phase (R98 to R101). -/
theorem reportSupply (h : s.TripsAgree) (r : SupplyState) : (reportSupply r s).TripsAgree := by
  unfold Machine.reportSupply
  cases phase : s.plan.phase with
  | start =>
    have quiet : s.plan.phase.quiet = true := by rw [phase]; rfl
    cases r with
    | mains => exact h.enterPhase (by rw [phase]; rfl)
    | genReady => exact (h.enterOutage quiet).startSettle
    | retransfer => exact h.enterReturnFromStart quiet
    | _ => exact h.enterOutage quiet
  | mains =>
    have quiet : s.plan.phase.quiet = true := by rw [phase]; rfl
    cases r with
    | genReady => exact (h.enterOutage quiet).startSettle
    | genStarting => exact h.enterOutage quiet
    | genLost => exact h.enterOutage quiet
    | _ => exact h
  | outage =>
    cases r with
    | mains => exact enterMains s
    | genReady => exact h.startSettle
    | _ => exact h.stopSettle
  | returning =>
    cases r with
    | mains => exact enterMains s
    | genReady => exact h.withdrawReturn phase
    | retransfer => exact h
    | _ => exact generatorLoss s
  | _ =>
    have loud : s.plan.phase.quiet = false := by rw [phase]; rfl
    cases r with
    | mains => exact enterMains s
    | genReady => exact h
    | retransfer => exact h.enterReturn loud
    | _ => exact generatorLoss s

/-! ## The store and a reset -/

theorem activate (h : s.TripsAgree) (quiet : s.plan.phase.quiet = true) (i : Image) :
    (activate i s).TripsAgree := by
  obtain ⟨idle, queue, stack, list⟩ := h.empty quiet
  obtain ⟨ports, made⟩ := activate_rest i s
  have gate : (Machine.activate i s).gate = s.gate := by rw [made]; rfl
  have plan : (Machine.activate i s).plan = s.plan := by rw [made]; rfl
  have shut := h.gate.closed.2 quiet
  refine of_empty (fun c => ?_) (by rw [made]; exact queue) (by rw [gate]; exact stack)
    (by rw [plan]; exact list) (by rw [gate, plan]; exact h.gate) (by rw [gate, shut]; decide)
  rw [State.trip, activate_car, recountCar]
  split
  · exact idle c
  · exact ⟨rfl, rfl⟩

theorem endStoreWrite (h : s.TripsAgree) (quiet : s.plan.phase.quiet = true) :
    (endStoreWrite s).TripsAgree := by
  have ended : State.TripsAgree { s with store := { s.store with
      state := .idle, writing := none, programTimer := none } } := h.parts rfl rfl rfl rfl (.refl _)
  have ended := ended.noticePanel .storeDone
  unfold Machine.endStoreWrite
  dsimp only
  split
  · exact ended
  · exact ended.activate quiet _

theorem activateOnMains (h : s.TripsAgree) : (activateOnMains s).TripsAgree := by
  unfold Machine.activateOnMains
  split
  · rename_i due; exact h.endStoreWrite (by rw [due.1]; rfl)
  · exact h

theorem programmingEnds (h : s.TripsAgree) : (programmingEnds s).TripsAgree := by
  unfold Machine.programmingEnds
  split
  · rename_i i _ _
    have stored : State.TripsAgree { s with store := { s.store with
        nv := .formed i, state := .awaitingActivation, writing := none, programTimer := none } } :=
      h.parts rfl rfl rfl rfl (.refl _)
    dsimp only
    split
    · rename_i phase
      exact stored.endStoreWrite (by rcases phase with e | e <;> exact congrArg Phase.quiet e)
    · exact stored
  · exact h

theorem takeSupply (h : s.TripsAgree) (u : Byte) : (takeSupply u s).1.TripsAgree := by
  unfold Machine.takeSupply
  split
  · exact h
  · exact (h.reportSupply _).activateOnMains

theorem takeSiteWrite (h : s.TripsAgree) (i : Image) : (takeSiteWrite i s).1.TripsAgree := by
  unfold Machine.takeSiteWrite
  split
  · exact h
  · split
    · exact h
    · split
      · exact h
      · exact h.parts rfl rfl rfl rfl (.refl _)

/-- After a reset every car is idle, every list empty and the gate CLOSED (R64, R152). -/
theorem of_reset (plan : s.plan = .atReset) (queue : s.queue = .atReset) (gate : s.gate = .atReset)
    (cars : s.cars = carsAtReset s.store.active) : s.TripsAgree := by
  refine of_empty (fun c => ?_) (by rw [queue]; rfl) (by rw [gate]; rfl) (by rw [plan]; rfl) ?_
    (by rw [gate]; decide)
  · rw [State.trip, carsAtReset_car cars]; exact ⟨rfl, rfl⟩
  · rw [gate, plan]; exact closeGate_sound s

end State.TripsAgree

end Sys2Proof.Machine
end

section
/-!
PROOFS. What one unit does: it exchanges port interfaces, or also brings one act of its port with it (R135 to R142).
-/

namespace Sys2Proof.Machine

variable {s t u v : State} {c : CarIx} {p : Port}

/-! ## Port interfaces -/

/-- Only port interfaces change, and no absent car's notices. -/
structure Rewired (s t : State) : Prop where
  rest : t = { s with ports := t.ports }
  hushed : ∀ c, s.configured c = false → (t.port (.car c)).notices = (s.port (.car c)).notices

namespace Rewired

theorem refl (s : State) : Rewired s s := ⟨rfl, fun _ _ => rfl⟩

theorem configured (h : Rewired s t) (c : CarIx) : t.configured c = s.configured c := by rw [h.rest]; rfl

theorem hears_iff (h : Rewired s t) : t.hears p ↔ s.hears p := by simp only [State.hears, h.configured]

theorem trans (h : Rewired s t) (k : Rewired t u) : Rewired s u where
  rest := by rw [k.rest, h.rest]
  hushed c off := (k.hushed c ((h.configured c).trans off)).trans (h.hushed c off)

theorem updPort (f : PortIf → PortIf) (may : s.hears p ∨ (f (s.port p)).notices = (s.port p).notices) :
    Rewired s (s.updPort p f) where
  rest := rfl
  hushed c off := by
    rw [State.updPort_port]
    split
    · rename_i same
      rcases may with hears | same'
      · exact absurd ((hears c same.symm).symm.trans off) (by decide)
      · rw [same]; exact same'
    · rfl

theorem of_hears (hears : s.hears p) (f : PortIf → PortIf) : Rewired s (s.updPort p f) :=
  updPort f (.inl hears)

theorem of_notices (p : Port) (f : PortIf → PortIf) (same : ∀ i, (f i).notices = i.notices) :
    Rewired s (s.updPort p f) := updPort f (.inr (same _))

end Rewired

/-! ## One unit -/

/-- What a unit may bring about on its port: a read or an answer, PROTOCOL, a request, and a latch of PROFILE or
OFFER in mid-request or at its end (R18, R45, R137, R138). -/
inductive PortEvent : Port → (State → State) → Prop
  | answer (p : Port) : PortEvent p (linkUp p)
  | protocol (p : Port) : PortEvent p fun s => noticeProtocol p (linkUp p s)
  | request (p : Port) (r : Request) (args : List Byte) :
      PortEvent p fun s => (requestAct p r args (linkUp p s)).1
  | latch (c : CarIx) (args : List Byte) : PortEvent (.car c) fun s =>
      s.updCar c fun r => { r with profile := latchProfile args r.profile }
  | lastLatch (c : CarIx) (args : List Byte) : PortEvent (.car c) fun s =>
      (linkUp (.car c) s).updCar c fun r => { r with profile := latchProfile args r.profile }
  | offer (args : List Byte) : PortEvent .supply (offerStep args)
  | lastOffer (args : List Byte) : PortEvent .supply fun s => offerStep args (linkUp .supply s)

/-- What one unit does to the part. -/
def UnitStep (s t : State) : Prop :=
  Rewired s t ∨ ∃ p v act, s.hears p ∧ Rewired s v ∧ PortEvent p act ∧ Rewired (act v) t

theorem supply_hears (s : State) : s.hears .supply := fun _ own => by cases own

namespace UnitStep

theorem refl (s : State) : UnitStep s s := .inl (.refl s)

theorem of_event (hears : s.hears p) {act : State → State} (event : PortEvent p act)
    (k : Rewired (act s) t) : UnitStep s t := .inr ⟨p, s, act, hears, .refl s, event, k⟩

theorem after (h : Rewired s t) (k : UnitStep t u) : UnitStep s u := by
  rcases k with k | ⟨p, v, act, hears, first, event, last⟩
  · exact .inl (h.trans k)
  · exact .inr ⟨p, v, act, h.hears_iff.1 hears, h.trans first, event, last⟩

theorem before (h : UnitStep s t) (k : Rewired t u) : UnitStep s u := by
  rcases h with h | ⟨p, v, act, hears, first, event, last⟩
  · exact .inl (h.trans k)
  · exact .inr ⟨p, v, act, hears, first, event, last.trans k⟩

theorem complete (hears : s.hears p) {act : State → State × ReqOutcome}
    (event : PortEvent p fun s => (act (linkUp p s)).1) : UnitStep s (complete p act s) := by
  have cleared : Rewired s (setRequest p none s) := .of_hears hears _
  exact .after cleared (.of_event (cleared.hears_iff.2 hears) event
    (.of_notices p (fun i => { i with outcome := _ }) fun _ => rfl))

theorem opcodeUnit (hears : s.hears p) (code : Byte) : UnitStep s (opcodeUnit p code s) := by
  have ended : Rewired s (endPrevious p s) := .of_hears hears _
  have heard := ended.hears_iff.2 hears
  refine .after ended ?_
  unfold Machine.opcodeUnit
  split
  · unfold startRequest
    split
    · exact .of_event heard (.answer p) (.of_notices p (fun i => { i with reply := _ }) fun _ => rfl)
    · split
      · exact .complete heard (.answer p)
      · split
        · exact .complete heard (.request p _ _)
        · exact .inl (.of_hears heard _)
  · exact .complete heard (.protocol p)

theorem profileUnit (hears : s.hears (.car c)) (q : InProgress) : UnitStep s (profileUnit c q s) := by
  unfold Machine.profileUnit
  split
  · exact .inl (.of_hears hears _)
  · split
    · exact .complete hears (.answer _)
    · dsimp only
      split
      · exact .of_event hears (.latch c q.args)
          (.of_notices _ (fun i => { i with request := _ }) fun _ => rfl)
      · exact .complete hears (.lastLatch c q.args)

theorem offerUnit (q : InProgress) (s : State) : UnitStep s (offerUnit q s) := by
  unfold Machine.offerUnit
  split
  · exact .of_event (supply_hears s) (.offer q.args)
      (.of_notices _ (fun i => { i with request := _ }) fun _ => rfl)
  · exact .complete (supply_hears s) (.lastOffer q.args)

theorem handUnit (hears : s.hears p) (q : InProgress) : UnitStep s (handUnit p q s) := by
  unfold Machine.handUnit
  split
  · exact profileUnit hears q
  · exact offerUnit q s
  · split
    · exact .inl (.of_hears hears _)
    · exact .complete hears (.request _ _ _)

theorem argUnit (hears : s.hears p) (data : Byte) : UnitStep s (argUnit p data s) := by
  unfold Machine.argUnit
  split
  · exact .handUnit hears _
  · split
    · exact .inl (.of_hears hears _)
    · exact .refl s

/-- A clocked bit is a unit's step as well: it is its last bit or changes the interface alone. -/
theorem clockBit (p : Port) (s : State) (b : Bool) : UnitStep s (clockBit p s b) := by
  unfold Machine.clockBit
  split
  · exact .refl s
  · rename_i takes
    have hears := hears_of_takes (by simpa using takes)
    extract_lets i t
    have sampled : Rewired s t := .of_hears hears _
    have heard := sampled.hears_iff.2 hears
    split
    · exact .inl sampled
    · split
      · exact .after sampled (.argUnit heard _)
      · exact .after sampled (.opcodeUnit heard _)

/-- What every unit's step keeps, every command of a port keeps. -/
theorem exec_keeps {P : State → Prop} (units : ∀ s t, P s → UnitStep s t → P t) (h : P s) {i : Instr}
    (sender : senderOf i = some p) (run : exec i s = .next t) : P t := by
  have begun (s : State) (h : P s) : P (beginUnit p s) :=
    units s _ h (.inl (.of_notices p (fun i => { i with selLow := true, shiftIn := [] }) fun _ => rfl))
  have bits (l : List Bool) (s : State) (h : P s) : P (l.foldl (Machine.clockBit p) s) :=
    List.foldlRecOn l _ h fun s hs b _ => units s _ hs (.clockBit p s b)
  rcases exec_units sender run with ⟨l, rfl⟩ | ⟨l, rfl⟩
  · exact List.foldlRecOn l _ h fun s hs _ _ => bits _ _ (begun s hs)
  · exact units _ _ (bits l _ (begun s h))
      (.inl (.of_notices p (fun i => { i with selLow := false, awaitSelect := false, shiftIn := [] }) fun _ => rfl))

end UnitStep

end Sys2Proof.Machine
end

section
/-!
PROOFS. The trips invariant over every command, and O52.
-/

namespace Sys2Proof.Machine

variable {s t : State} {p : Port}

namespace State

/-- The records and the trips agree: what a command needs to keep the trips. -/
structure TripsKept (s : State) : Prop where
  records : s.RecordsAgree none
  trips : s.TripsAgree

namespace TripsKept

theorem of_sound (h : s.Sound) : s.TripsKept := ⟨.of_sound h, .of_consistent h.consistent⟩

theorem consistent (h : s.TripsKept) : s.Consistent :=
  h.trips.consistent fun e on => (h.records.listHeld e on).2

theorem rewired (h : s.TripsKept) (k : Rewired s t) : t.TripsKept := by
  have rest := k.rest
  refine ⟨h.records.parts_hushed ?_ k.hushed, h.trips.parts ?_ ?_ ?_ ?_ ?_⟩ <;> rw [rest]
  rfl

end TripsKept

namespace TripsAgree

theorem supplyLinkUp (h : s.TripsAgree) : (supplyLinkUp s).TripsAgree := by
  have up : State.TripsAgree { s with supplyLink := ⟨.up, s.startTimer (tLink s.store.active)⟩ } :=
    h.parts rfl rfl rfl rfl (.refl _)
  unfold Machine.supplyLinkUp
  dsimp only
  split
  · exact up
  · exact up.closeEvent {} s

theorem linkUp (h : s.TripsAgree) (p : Port) : (linkUp p s).TripsAgree := by
  cases p with
  | car c => exact h.carLinkUp
  | supply => exact h.supplyLinkUp
  | panel => exact h.parts rfl rfl rfl rfl (.refl _)

theorem noticeProtocol (h : s.TripsAgree) (p : Port) : (noticeProtocol p s).TripsAgree := by
  cases p with
  | car c => exact h.noticeCar c .protocol
  | supply => exact h.noticeSupply .protocol
  | panel => exact h.noticePanel .protocol

theorem requestAct (h : s.TripsAgree) (failed : ∀ e ∈ s.plan.recallList, (s.car e.car).recallFailed = false)
    (p : Port) (r : Request) (args : List Byte) : (requestAct p r args s).1.TripsAgree := by
  have closed {k : Cause} {act : State → State × ReqOutcome} (acted : (act s).1.TripsAgree) :
      (closing k act s).1.TripsAgree := acted.closeEvent k s
  have accepted {f : State → State} (acted : (f s).TripsAgree) : (accepting f s).1.TripsAgree := acted
  unfold Machine.requestAct
  split
  · refine closed ?_; exact h.takeTrip _ _
  · refine closed ?_; exact h.withdrawTrip
  · refine closed ?_; exact h.atSpeed
  · exact h.startFailed
  · exact h.carStopped
  · rename_i c
    exact closed (accepted (f := Machine.takeState c (argAt args 0)) (h.takeState _))
  · refine closed ?_; exact h.takeSupply _
  · refine closed ?_; exact h.takeRecovered
  · refine closed ?_; exact h.takeReserve _ _
  · refine closed ?_; exact h.takeClaim _
  · refine closed ?_; exact h.releaseClaim
  · refine closed ?_; exact h.takeSelect _
  · refine closed ?_; exact h.takeInclude failed _ _
  · refine closed ?_; exact h.takeRelease _
  · exact h.takeSiteWrite _
  · exact h

end TripsAgree

namespace TripsKept

theorem linkUp (h : s.TripsKept) (hears : s.hears p) : (Machine.linkUp p s).TripsKept :=
  ⟨h.records.linkUp hears, h.trips.linkUp p⟩

theorem latch (h : s.TripsKept) {c : CarIx} (hears : s.hears (.car c)) (args : List Byte) :
    (s.updCar c fun r => { r with profile := latchProfile args r.profile }).TripsKept :=
  ⟨h.records.edit (hears c rfl) (fun _ => rfl) fun _ => rfl, h.trips.edit fun _ => rfl⟩

theorem offerStep (h : s.TripsKept) (args : List Byte) : (offerStep args s).TripsKept :=
  ⟨h.records.offerStep args, h.trips.offerStep args⟩

theorem event (h : s.TripsKept) (hears : s.hears p) {act : State → State} (event : PortEvent p act) :
    (act s).TripsKept := by
  have up := h.linkUp hears
  have heard := hears.of_store (linkUp_store p s)
  cases event with
  | answer => exact up
  | protocol => exact ⟨up.records.noticeProtocol, up.trips.noticeProtocol p⟩
  | request _ r args =>
    exact ⟨up.records.requestAct heard r args,
      up.trips.requestAct (fun e on => (up.records.listHeld e on).2) p r args⟩
  | latch c args => exact h.latch hears args
  | lastLatch c args => exact up.latch heard args
  | offer args => exact h.offerStep args
  | lastOffer args => exact up.offerStep args

theorem unitStep (h : s.TripsKept) (k : UnitStep s t) : t.TripsKept := by
  rcases k with k | ⟨p, v, act, hears, first, event, last⟩
  · exact h.rewired k
  · exact ((h.rewired first).event (first.hears_iff.2 hears) event).rewired last

end TripsKept

namespace TripsAgree

theorem guarded {P : Prop} {inst : Decidable P} {u : State} (h : s.TripsAgree) (acts : P → u.TripsAgree)
    (run : Host.Outcome.next (if P then u else s) = (.next t : Answer)) : t.TripsAgree := by
  cases run
  split
  · rename_i due; exact acts due
  · exact h

theorem forceClearance (h : s.TripsAgree) : (forceClearance s).TripsAgree := by
  refine State.TripsAgree.noticePanel (State.TripsAgree.noticeSupply ?_ .clear) .returnForced
  exact h.parts rfl rfl rfl rfl (.refl _)

theorem released (n : NvStore) (carsel : BitVec 2) (single : Bool) (ports : Vector PortIf 14)
    (now freeIx : Nat) (pending : List Instr) :
    (State.released n carsel single ports now freeIx pending).TripsAgree := .of_reset rfl rfl rfl rfl

/-- A command of no port: a timer's, the store's or the reset's. -/
theorem unsent (h : s.TripsAgree) {i : Instr} (own : senderOf i = none) (run : exec i s = .next t) :
    t.TripsAgree := by
  have closed {u : State} (hu : u.TripsAgree) : (Machine.closeEvent {} s u).TripsAgree := hu.closeEvent {} s
  cases i with
  | carLinkTimeout c => exact h.guarded (fun _ => closed h.loseCarLink) run
  | supplyLinkTimeout =>
    refine h.guarded (fun _ => State.TripsAgree.noticePanel ?_ .supplySilent) run
    exact h.parts rfl rfl rfl rfl (.refl _)
  | panelLinkTimeout =>
    refine h.guarded (fun _ => State.TripsAgree.noticeSupply ?_ .panelSilent) run
    exact h.parts rfl rfl rfl rfl (.refl _)
  | settleExpiry => exact h.guarded (fun due => closed (h.settleExpires due.1)) run
  | returnTimerExpiry => exact h.guarded (fun _ => h.forceClearance) run
  | recallSupervisionExpiry c => exact h.guarded (fun _ => closed h.recallExpires) run
  | startWindowExpiry => exact h.guarded (fun due => h.startWindowExpires due.1) run
  | panelWindowExpiry => exact h.guarded (fun due => (h.endPanelHold due.1).noticePanel .startOverdue) run
  | recoveryExpiry => exact h.guarded (fun due => closed (h.openGate due.1)) run
  | fairnessExpiry => exact h.guarded (fun _ => closed h.unfair) run
  | headAgeExpiry =>
    refine h.guarded (fun _ => closed ?_) run
    exact h.parts rfl rfl rfl rfl (.refl _)
  | shedSupervisionExpiry c => 
    refine h.guarded (fun _ => State.TripsAgree.closeEvent ?_ _ _) run
    exact h.parts rfl rfl rfl rfl (.refl _)
  | storeProgrammingEnd => exact h.guarded (fun _ => closed h.programmingEnds) run
  | reset => cases run; exact .of_reset rfl rfl rfl rfl
  | resetRelease carsel single =>
    exact h.guarded (fun _ => .released s.store.nv carsel single s.ports s.now s.freeIx s.pending) run
  | _ => cases own

end TripsAgree

end State

theorem State.TripsKept.exec (h : s.TripsKept) {i : Instr} (run : exec i s = .next t) : t.TripsKept := by
  cases sender : senderOf i with
  | none => exact ⟨h.records.unsent h.consistent sender run, h.trips.unsent sender run⟩
  | some p => exact UnitStep.exec_keeps (fun _ _ k step => k.unitStep step) h sender run

/-- Settles O52: the trips invariant, which a sound state has, is kept by every act of every command. -/
theorem tripsAgreeKept : Obligations.TripsAgreeKept := by
  intro s t sound run
  have kept := State.TripsKept.of_sound sound
  have aside {u : State} (recorded : u.recorded = s.recorded) (ports : u.ports = s.ports) (cars : u.cars = s.cars)
      (queue : u.queue = s.queue) (gate : u.gate = s.gate) (plan : u.plan = s.plan) : u.TripsKept :=
    ⟨kept.records.parts recorded ports, kept.trips.parts cars (by rw [queue]) gate (by rw [plan]) (by rw [plan])⟩
  have agrees : t.TripsKept := step_commands run (aside rfl rfl rfl rfl rfl rfl)
    fun i pending freeIx run => State.TripsKept.exec (s := { s with pending := pending, freeIx := freeIx })
      (aside rfl rfl rfl rfl rfl rfl) run
  exact agrees.consistent

end Sys2Proof.Machine
end

section
/-!
PROOFS. An event that moves the gate and the head's age alone, and a request with no argument that comes whole; the two
windows, the return timer and the claims (O44, O36).
-/

namespace Sys2Proof.Machine

variable {s t : State} {p : Port} {r : Request}

/-! ## An event of the gate -/

/-- The state with another gate, and other ages of the queue's head. -/
def State.withGate (s : State) (g : Gate) (timer : Timer) (aged : Bool) : State :=
  { s with gate := g, queue := { s.queue with headTimer := timer, headAged := aged } }

section
variable (s : State) (g : Gate) (timer : Timer) (aged : Bool) (c : CarIx)
@[simp] theorem State.withGate_gate : (s.withGate g timer aged).gate = g := rfl
@[simp] theorem State.withGate_entries : (s.withGate g timer aged).queue.entries = s.queue.entries := rfl
@[simp] theorem State.withGate_headAged : (s.withGate g timer aged).queue.headAged = aged := rfl
@[simp] theorem State.withGate_account : (s.withGate g timer aged).account = s.account := rfl
@[simp] theorem State.withGate_plan : (s.withGate g timer aged).plan = s.plan := rfl
@[simp] theorem State.withGate_link : (s.withGate g timer aged).supplyLink = s.supplyLink := rfl
@[simp] theorem State.withGate_trip : (s.withGate g timer aged).trip c = s.trip c := rfl

theorem State.withGate_sameAccount : SameAccount s (s.withGate g timer aged) := .parts rfl rfl rfl rfl rfl

@[simp] theorem State.withGate_rs : (s.withGate g timer aged).rs = s.rs := (s.withGate_sameAccount g timer aged).rs

@[simp] theorem State.withGate_figures : (s.withGate g timer aged).figures = s.figures :=
  (s.withGate_sameAccount g timer aged).figures
end

/-- An event that moves the gate and the head's age alone ends in a run of the grant rule, if one is due (R66). -/
theorem closeEvent_withGate (settled : s.Settled) (g : Gate) (timer : Timer) (aged : Bool) :
    closeEvent {} s (s.withGate g timer aged) = grantIfDue s (s.withGate g timer aged) := by
  have same : advancePlan s (s.withGate g timer aged) = s.withGate g timer aged :=
    advancePlan_of_same rfl rfl rfl
  have noRecheck : recheckDue s (s.withGate g timer aged) = false := by simp [recheckDue, stepLowered]
  have noJoin : someJoined (fun x c => x.role c == .parked) s (s.withGate g timer aged) = false :=
    someJoined_self (fun x c => x.role c == .parked) s
  have noLeft : someLeft State.inService s (s.withGate g timer aged) = false :=
    someLeft_self State.inService s
  have noSelection : selectionDue {} s (s.withGate g timer aged) = false := by
    cases phase : s.account.overcommit <;> simp [selectionDue, noJoin, noLeft, phase]
  have noPass : shedIfDue {} s (s.withGate g timer aged) = s.withGate g timer aged := by simp [shedIfDue]
  have still : (s.withGate g timer aged).Settled := settled.of_same (s.withGate_sameAccount ..) rfl
  rw [closeEvent_eq, evaluated, same, still.evaluate_eq_self, recheckIfDue, noRecheck, if_neg (by decide), noPass,
    selectAndGrant, noSelection, if_neg (by decide)]

/-- Nothing more happens while the gate is not OPEN. -/
theorem grantIfDue_shut {s0 : State} (shut : s.gate.state ≠ .opened) : grantIfDue s0 s = s := by
  rw [grantIfDue, grantRule, if_neg shut, ite_self]

/-- No run of the grant rule is due where the gate stays as it was, no claim comes and no window ends (R66). -/
theorem grantIfDue_withdrawn {g : Gate} {timer : Timer} {aged : Bool} (state : g.state = s.gate.state)
    (claim : g.pendingClaim.isSome = true → s.gate.pendingClaim.isSome = true)
    (fair : s.gate.fairness.isSome = true → g.fairness.isSome = true) (same : aged = s.queue.headAged) :
    grantIfDue s (s.withGate g timer aged) = s.withGate g timer aged := by
  by_cases opened : g.state = .opened
  · have noClaim : (g.pendingClaim.isSome && s.gate.pendingClaim.isNone) = false := by
      rw [Bool.and_eq_false_imp]
      intro some
      rw [← Option.not_isSome, claim some]; rfl
    have noWindow : (s.gate.fairness.isSome && g.fairness.isNone) = false := by
      rw [Bool.and_eq_false_imp]
      intro some
      rw [← Option.not_isSome, fair some]; rfl
    have notDue : grantDue s (s.withGate g timer aged) = false := by
      rw [state] at opened
      simp [grantDue, supplyCameUp, opened, noClaim, noWindow, same]
    rw [grantIfDue, notDue, if_neg (by decide)]
  · exact grantIfDue_shut opened

/-- A run of the grant rule is due when the gate was not OPEN. -/
theorem grantIfDue_opened {s0 : State} (was : s0.gate.state ≠ .opened) : grantIfDue s0 s = grantRule s := by
  have due : grantDue s0 s = true := by simp [grantDue, was]
  rw [grantIfDue, if_pos due]

/-- A pending claim with no fairness window is granted (R66, R79). -/
theorem grantRule_claim (opened : s.gate.state = .opened) {e : EntryIx} (claim : s.gate.pendingClaim = some e)
    (fair : s.gate.fairness = none) : grantRule s = panelGrant e s := by
  simp [grantRule, opened, claim, fair]

/-- With no claim to grant the grant rule is the car grant's (R66). -/
theorem grantRule_cars (opened : s.gate.state = .opened)
    (unclaimed : ¬ (s.gate.pendingClaim.isSome = true ∧ s.gate.fairness = none)) : grantRule s = carGrantRule s := by
  rw [grantRule, if_pos opened]
  cases claim : s.gate.pendingClaim with
  | none => rfl
  | some e =>
    have fair : ¬ s.gate.fairness.isNone = true := fun fair =>
      unclaimed ⟨by rw [claim]; rfl, Option.isNone_iff_eq_none.1 fair⟩
    simp only [fair]
    rfl

theorem carGrantRule_barred (barred : carGrantAllowed s = false) : carGrantRule s = s := by
  rw [carGrantRule, barred, if_neg (by decide)]

/-! ## A request with no argument -/

/-- A request with no argument acts at its opcode unit (R137). -/
theorem shiftOpcode_acts (h : ignores s p = false) (named : Request.ofCode p r.code = some r)
    (writes : r.isRead = false) (plain : r ≠ .profile) (takes : r.argUnits [] = 0) :
    shiftOpcode p r.code s = setOutcome p (requestAct p r [] (requestStart p s)).2
      (requestAct p r [] (requestStart p s)).1 := by
  rw [shiftOpcode, shiftUnit_eq h, if_neg (by decide), opcodeUnit, named]
  simp only [startRequest, writes, plain, takes, false_and, if_false, if_true, Bool.false_eq_true]
  rw [complete, setRequest, endPrevious, State.updPort_updPort, State.updPort_updPort]
  rfl

theorem setOutcome_noticePanel (o : ReqOutcome) (s : State) (k : PanelNotice) :
    setOutcome .panel o (s.noticePanel k) = (setOutcome .panel o s).noticePanel k := by
  simp only [setOutcome, State.noticePanel, State.setNotice, State.updPort_updPort]
  

/-! ## The panel hold -/

theorem endPanelHold_eq (s : State) : endPanelHold s = { s with gate := { s.recovering with
    heldClaim := none
    fairness := if s.queue.entries = [] then s.gate.fairness else s.startTimer (tFair s.store.active) } } := by
  unfold endPanelHold
  dsimp only
  split
  · rename_i empty
    have empty : s.queue.entries = [] := empty
    simp only [if_pos empty]
    rfl
  · rename_i waits
    have waits : s.queue.entries ≠ [] := waits
    simp only [if_neg waits]
    rfl

/-- Settles O44: each expiry is the act its rule names, and its condition holds. -/
theorem windowsAndReturnExpire : Obligations.WindowsAndReturnExpire := by
  intro s
  refine ⟨fun phase clearance runs => ?_, fun c state holder runs => ?_, fun state runs => ?_⟩
  · show execReturnTimerExpiry s = _
    rw [execReturnTimerExpiry, if_pos ⟨phase, clearance, runs⟩]
    rfl
  · show execStartWindowExpiry s = _
    rw [execStartWindowExpiry, if_pos ⟨state, runs⟩, startWindowExpires, holder]
    rfl
  · show execPanelWindowExpiry s = _
    rw [execPanelWindowExpiry, if_pos ⟨state, runs⟩, endPanelHold_eq]

/-- Settles O36: the release is an event of the gate, after which the gate is not OPEN or no claim is pending. -/
theorem gateReleaseCompletes : Obligations.GateReleaseCompletes := by
  intro s h settled
  have named : Request.ofCode .panel Request.gateRelease.code = some .gateRelease := by
    simp [Request.ofCode, requestsOf, commonRequests, panelRequests, Request.code]
  have run : exec .gateRelease s = .next (setOutcome .panel (closing {} releaseClaim (reserveStart s)).2
      (closing {} releaseClaim (reserveStart s)).1) :=
    congrArg Host.Outcome.next (shiftOpcode_acts h named rfl (by decide) rfl)
  have ends {g : Gate} {o : ReqOutcome} (acted : releaseClaim (reserveStart s) =
      ((reserveStart s).withGate g s.queue.headTimer s.queue.headAged, o))
      (calm : grantIfDue (reserveStart s) ((reserveStart s).withGate g s.queue.headTimer s.queue.headAged) =
        (reserveStart s).withGate g s.queue.headTimer s.queue.headAged) :
      exec .gateRelease s = .next { panelAnswered o s with gate := g } := by
    rw [run, closing, acted, ← reserveStart_answered]
    dsimp only
    rw [closeEvent_withGate (reserveStart_settled settled), calm]
    rfl
  refine ⟨fun held => ?_, fun free pending => ?_, fun free unclaimed => ?_⟩
  · have held' : (reserveStart s).gate.heldClaim.isSome = true := held
    refine ends (by rw [releaseClaim, if_pos held', endPanelHold_eq]; rfl) (grantIfDue_shut ?_)
    exact (by decide : GateState.recovery ≠ .opened)
  · have free' : ¬ (reserveStart s).gate.heldClaim.isSome = true := by
      rw [show (reserveStart s).gate = s.gate from rfl, free]; decide
    have pending' : (reserveStart s).gate.pendingClaim.isSome = true := pending
    refine ends (by rw [releaseClaim, if_neg free', if_pos pending']; rfl) (grantIfDue_withdrawn ?_ ?_ ?_ ?_)
    · rfl
    · exact fun claim => by cases claim
    · exact id
    · rfl
  · have free' : ¬ (reserveStart s).gate.heldClaim.isSome = true := by
      rw [show (reserveStart s).gate = s.gate from rfl, free]; decide
    have unclaimed' : ¬ (reserveStart s).gate.pendingClaim.isSome = true := by
      rw [show (reserveStart s).gate = s.gate from rfl, unclaimed]; decide
    rw [run]
    exact congrArg _ (closing_refused settled (by rw [releaseClaim, if_neg free', if_neg unclaimed']))

end Sys2Proof.Machine
end

section
/-!
PROOFS. GATE-CLAIM and the fairness window's and the head age's ends (O35, O46).
-/

namespace Sys2Proof.Machine

variable {s t : State}

/-! ## The claim -/

theorem entryIxOf_lt {u : Byte} (h : u.toNat < 8) : entryIxOf u = some ⟨u.toNat, h⟩ := dif_pos h

theorem entryIxOf_ge {u : Byte} (h : 8 ≤ u.toNat) : entryIxOf u = none := dif_neg (by omega)

/-- Outside the quiet phases a claim is looked at entry by entry (R78). -/
theorem takeClaim_loud (phase : s.plan.phase = .recall ∨ s.plan.phase = .service ∨ s.plan.phase = .returning)
    (u : Byte) : takeClaim u s = match entryIxOf u with
      | none => (s, .range)
      | some e =>
        if s.account.reserves[e.val] = none then (s, .notPermitted)
        else if s.gate.pendingClaim.isSome ∨ s.gate.heldClaim.isSome then (s, .notPermitted)
        else ({ s with gate := { s.gate with pendingClaim := some e } }, .accepted) := by
  rcases phase with phase | phase | phase <;> rw [takeClaim, phase] <;> rfl

theorem exec_gateClaim (h : ignores s .panel = false) (u : Byte) :
    exec (.gateClaim (.opened [u])) s = .next (setOutcome .panel (closing {} (takeClaim u) (reserveStart s)).2
      (closing {} (takeClaim u) (reserveStart s)).1) := by
  have named : Request.ofCode .panel Request.gateClaim.code = some .gateClaim := by
    simp [Request.ofCode, requestsOf, commonRequests, panelRequests, Request.code]
  exact congrArg Host.Outcome.next (arrive_one (r := .gateClaim) (u := u) h named (by decide) (by decide)
    (by decide) (act := closing {} (takeClaim u)) fun _ => rfl)

/-- The gate with a claim that waits. -/
def State.claiming (s : State) (e : EntryIx) : State :=
  (reserveStart s).withGate { s.gate with pendingClaim := some e } s.queue.headTimer s.queue.headAged

/-- An accepted claim is an event of the gate (R79). -/
theorem exec_gateClaim_accepted (h : ignores s .panel = false) (settled : s.Settled) {u : Byte} {e : EntryIx}
    (acted : takeClaim u (reserveStart s) = (s.claiming e, .accepted)) :
    exec (.gateClaim (.opened [u])) s =
      .next (setOutcome .panel .accepted (grantIfDue (reserveStart s) (s.claiming e))) := by
  rw [exec_gateClaim h, closing, acted]
  dsimp only
  rw [State.claiming, closeEvent_withGate (reserveStart_settled settled)]

theorem grantIfDue_claiming (fresh : s.gate.pendingClaim = none) (e : EntryIx) :
    grantIfDue (reserveStart s) (s.claiming e) = grantRule (s.claiming e) := by
  have none : (reserveStart s).gate.pendingClaim = none := fresh
  have due : grantDue (reserveStart s) (s.claiming e) = true := by simp [grantDue, State.claiming, none]
  rw [grantIfDue, if_pos due]

theorem carGrantRule_gate (s : State) : (carGrantRule s).gate.pendingClaim = s.gate.pendingClaim := by
  unfold carGrantRule
  split
  · split
    · simp only [carGrant, State.noticeCar_gate, removeEntry, setEntries_gate]; rfl
    · rfl
  · rfl

/-- What an accepted claim comes to: it waits while the gate is not OPEN or the fairness window runs, and is else
granted (R79). -/
theorem claim_ends (fresh : s.gate.pendingClaim = none) (e : EntryIx) :
    let ends := Host.Outcome.next (setOutcome .panel .accepted (grantIfDue (reserveStart s) (s.claiming e)))
    (s.gate.state ≠ .opened → ends = (.next { panelAnswered .accepted s with
        gate := { s.gate with pendingClaim := some e } } : Answer)) ∧
    (s.gate.state = .opened → s.gate.fairness = none →
      ends = .next ({ panelAnswered .accepted s with gate := { s.gate with
        heldClaim := some e, state := .panelStart, holder := .panel,
        panelTimer := s.startTimer (tPstart s.store.active) } }.noticePanel .panelGrant)) ∧
    (s.gate.state = .opened → s.gate.fairness.isSome = true →
      ∃ t, ends = .next t ∧ OnlyDecisions (panelAnswered .accepted s) t ∧ t.gate.pendingClaim = some e) := by
  refine ⟨fun shut => ?_, fun opened fair => ?_, fun opened window => ⟨_, rfl, ?_, ?_⟩⟩
  · have shut : (s.claiming e).gate.state ≠ .opened := shut
    rw [grantIfDue_shut shut, ← reserveStart_answered]; rfl
  · have opened : (s.claiming e).gate.state = .opened := opened
    rw [grantIfDue_claiming fresh, grantRule_claim opened rfl fair, panelGrant, setOutcome_noticePanel,
      ← reserveStart_answered]
    simp only [fresh]
    rfl
  · have moves : Moves (s.claiming e) _ := grantIfDue_moves (reserveStart s) _
    rw [← reserveStart_answered]
    exact (moves.only.updPort (setOutcome_act .accepted) .panel).of_gate
      (g := { s.gate with pendingClaim := some e }) rfl
  · have opened : (s.claiming e).gate.state = .opened := opened
    have kept : ¬ ((s.claiming e).gate.pendingClaim.isSome = true ∧ (s.claiming e).gate.fairness = none) :=
      fun both => by
        have fair : s.gate.fairness = none := both.2
        rw [fair] at window; cases window
    rw [grantIfDue_claiming fresh, grantRule_cars opened kept]
    exact carGrantRule_gate _

/-- Settles O35: the first row that applies, and the run of the grant rule that an accepted claim brings. -/
theorem gateClaimAnswered : Obligations.GateClaimAnswered := by
  intro s u h settled
  have refused {o : ReqOutcome} (act : takeClaim u (reserveStart s) = (reserveStart s, o)) :
      exec (.gateClaim (.opened [u])) s = .next (panelAnswered o s) := by
    rw [exec_gateClaim h]; exact congrArg _ (closing_refused settled act)
  have plan : (reserveStart s).plan = s.plan := rfl
  refine ⟨fun phase => refused ?_, fun phase => refused ?_,
    fun phase => ⟨fun above => refused ?_, fun entry => ?_⟩⟩
  · rcases phase with phase | phase <;> rw [takeClaim, plan, phase]
  · rw [takeClaim, plan, phase]
  · rw [takeClaim_loud (s := reserveStart s) phase, entryIxOf_ge above]
  · have loud := takeClaim_loud (s := reserveStart s) phase u
    rw [entryIxOf_lt entry] at loud
    dsimp only at loud
    refine ⟨fun bad => refused ?_, fun filled noPending noHeld => ?_⟩
    · rw [loud]
      rcases bad with empty | claimed
      · exact if_pos empty
      · have claimed : (reserveStart s).gate.pendingClaim.isSome = true ∨
            (reserveStart s).gate.heldClaim.isSome = true := claimed
        rw [if_pos claimed, ite_self]
    · have filled : (reserveStart s).account.reserves[u.toNat] ≠ none := filled
      have free : ¬ ((reserveStart s).gate.pendingClaim.isSome = true ∨
          (reserveStart s).gate.heldClaim.isSome = true) := by
        rw [show (reserveStart s).gate = s.gate from rfl, noPending, noHeld]; decide
      have acted : takeClaim u (reserveStart s) = (s.claiming ⟨u.toNat, entry⟩, .accepted) := by
        rw [loud, if_neg filled, if_neg free]; rfl
      rw [exec_gateClaim_accepted h settled acted]
      generalize (⟨u.toNat, entry⟩ : EntryIx) = e
      exact claim_ends noPending e

/-! ## The windows -/

/-- The grant rule does not run, or may grant nothing (R66, R67). -/
theorem grantIfDue_barred {s0 : State} (bars : s.gate.state ≠ .opened ∨ s.gate.pendingClaim = none ∧
    (s.account.overcommit = .holding ∨ s.supplyLink.link ≠ .up)) : grantIfDue s0 s = s := by
  by_cases opened : s.gate.state = .opened
  · obtain ⟨noClaim, bars⟩ := bars.resolve_left (not_not_intro opened)
    have barred : carGrantAllowed s = false := by
      rcases bars with held | down
      · simp [carGrantAllowed, held]
      · simp [carGrantAllowed, down]
    have nothing : grantRule s = s := by
      rw [grantRule_cars opened (by rw [noClaim]; exact fun both => by cases both.1), carGrantRule_barred barred]
    rw [grantIfDue, nothing, ite_self]
  · exact grantIfDue_shut opened

/-- A run of the grant rule leaves the head's age where no entry leaves (R89). -/
theorem grantIfDue_age (s0 s : State) (same : (grantIfDue s0 s).queue.entries = s.queue.entries) :
    (grantIfDue s0 s).queue = s.queue := by
  have cars : (carGrantRule s).queue.entries = s.queue.entries → (carGrantRule s).queue = s.queue := by
    unfold carGrantRule
    split
    · split
      · rename_i c found
        intro same
        have queued := candidates_subset (List.mem_of_find?_eq_some found)
        rw [carGrant_entries] at same
        rw [← same] at queued
        simp at queued
      · exact fun _ => rfl
    · exact fun _ => rfl
  have rule : (grantRule s).queue.entries = s.queue.entries → (grantRule s).queue = s.queue := by
    unfold grantRule
    split
    · split
      · split
        · exact fun _ => rfl
        · exact cars
      · exact cars
    · exact fun _ => rfl
  unfold grantIfDue at same ⊢
  split
  · rename_i due
    rw [if_pos due] at same
    exact rule same
  · rfl

/-- The fairness window is over. -/
def State.unfair (s : State) : State :=
  s.withGate { s.gate with fairness := none } s.queue.headTimer s.queue.headAged

/-- The queue's head is aged. -/
def State.headOld (s : State) : State := s.withGate s.gate none true

theorem headOld_only (s : State) : OnlyDecisions s s.headOld :=
  .parts rfl rfl rfl rfl rfl rfl rfl rfl rfl rfl rfl

/-- Settles O46: each expiry is an event of the gate and the head's age. -/
theorem fairnessAndHeadAgeExpire : Obligations.FairnessAndHeadAgeExpire := by
  intro s settled noGrant
  refine ⟨fun window => ?_, fun ages => ?_⟩
  · have run : exec .fairnessExpiry s = .next (grantIfDue s s.unfair) := by
      show execFairnessExpiry s = _
      rw [execFairnessExpiry, if_pos window, State.unfair, ← closeEvent_withGate settled]
      rfl
    rw [run]
    refine ⟨fun bars => ?_, fun e opened claim => ?_⟩
    · have bars : s.unfair.gate.state ≠ .opened ∨ s.unfair.gate.pendingClaim = none ∧
          (s.unfair.account.overcommit = .holding ∨ s.unfair.supplyLink.link ≠ .up) := bars
      rw [grantIfDue_barred bars]; rfl
    · have due : grantDue s s.unfair = true := by simp [grantDue, State.unfair, window]
      have opened : s.unfair.gate.state = .opened := opened
      rw [grantIfDue, if_pos due, grantRule_claim opened claim rfl]
      rfl
  · have run : exec .headAgeExpiry s = .next (grantIfDue s s.headOld) := by
      show execHeadAgeExpiry s = _
      rw [execHeadAgeExpiry, if_pos ages, State.headOld, ← closeEvent_withGate settled]
      rfl
    rw [run]
    refine ⟨fun bars => ?_, _, rfl, ?_, fun same => ?_⟩
    · have bars : s.headOld.gate.state ≠ .opened ∨ s.headOld.gate.pendingClaim = none ∧
          (s.headOld.account.overcommit = .holding ∨ s.headOld.supplyLink.link ≠ .up) := bars
      rw [grantIfDue_barred bars]; rfl
    · exact (headOld_only s).trans (grantIfDue_moves s s.headOld).only
    · rw [grantIfDue_age s s.headOld same]
      exact ⟨rfl, rfl⟩

end Sys2Proof.Machine
end

section
/-!
PROOFS. The grant rule written out, and the gate's recovery (O33).
-/

namespace Sys2Proof.Machine

variable {s t : State} {c : CarIx} {p : Port}

/-! ## A car grant written out -/

theorem setEntries_eq (l : List CarIx) (s : State) : setEntries l s = { s with queue := (setEntries l s).queue } := by
  unfold setEntries
  dsimp only
  split
  · rfl
  · split <;> rfl

/-- The queue that new entries make of another state's queue. -/
theorem setEntries_queue {l : List CarIx} (queue : t.queue = s.queue) (store : t.store = s.store)
    (now : t.now = s.now) : (setEntries l t).queue = (setEntries l s).queue := by
  simp only [setEntries, queue, store, State.startTimer, now]
  split
  · rfl
  · split <;> rfl

/-- The head's age follows the entries (R89). -/
theorem headFollows_of_setEntries {l : List CarIx} (queue : t.queue = (setEntries l s).queue)
    (store : t.store = s.store) : s.HeadFollows t := by
  unfold State.HeadFollows
  rw [queue, store, setEntries_entries]
  unfold setEntries
  dsimp only
  split
  · exact ⟨rfl, rfl⟩
  · split <;> exact ⟨rfl, rfl⟩

/-- The state after a car grant but for the notice PERMIT (R68). -/
def State.unpermitted (s : State) (c : CarIx) : State :=
  { s with
    cars := (s.updCar c .granted).cars
    queue := (removeEntry c s).queue
    gate := { s.gate with
      state := .carStart, holder := .car c, startTimer := s.startTimer (tStart s.store.active),
      fairness := none, stack := s.gate.stack ++ [c] } }

theorem carGrant_eq (c : CarIx) (s : State) : carGrant c s = (s.unpermitted c).noticeCar c .permit := by
  have removed : removeEntry c (s.updCar c .granted) =
      { s.updCar c .granted with queue := (removeEntry c s).queue } := by
    have queue : (removeEntry c (s.updCar c .granted)).queue = (removeEntry c s).queue :=
      setEntries_queue rfl rfl rfl
    rw [← queue]
    exact setEntries_eq _ _
  have made : carGrant c s = State.noticeCar { removeEntry c (s.updCar c .granted) with
      gate := { (removeEntry c (s.updCar c .granted)).gate with
        stack := (removeEntry c (s.updCar c .granted)).gate.stack ++ [c], state := .carStart, holder := .car c,
        startTimer := (removeEntry c (s.updCar c .granted)).startTimer
          (tStart (removeEntry c (s.updCar c .granted)).store.active)
        fairness := none } } c .permit := rfl
  rw [made, removed]
  rfl

/-- A notice on a car port and a change of another port go in either order. -/
theorem State.noticeCar_updPort (s : State) (ne : p ≠ .car c) (f : PortIf → PortIf) (k : CarNotice) :
    (s.updPort p f).noticeCar c k = (s.noticeCar c k).updPort p f := by
  have on : (s.updPort p f).configured c = s.configured c := rfl
  unfold State.noticeCar
  rw [on]
  split
  · exact State.updPort_comm s ne f _
  · rfl

theorem carGrant_updPort (ne : p ≠ .car c) (f : PortIf → PortIf) :
    carGrant c (s.updPort p f) = (carGrant c s).updPort p f := by
  have base : (s.updPort p f).unpermitted c = (s.unpermitted c).updPort p f := by
    have queue : (removeEntry c (s.updPort p f)).queue = (removeEntry c s).queue := setEntries_queue rfl rfl rfl
    simp only [State.unpermitted, queue]
    rfl
  rw [carGrant_eq, carGrant_eq, base, State.noticeCar_updPort _ ne]

theorem panelGrant_updPort (ne : p ≠ .panel) (e : EntryIx) (f : PortIf → PortIf) :
    panelGrant e (s.updPort p f) = (panelGrant e s).updPort p f := by
  unfold panelGrant State.noticePanel State.setNotice
  rw [← State.updPort_comm _ ne]
  rfl

theorem carGrantRule_supply (s : State) (f : PortIf → PortIf) :
    carGrantRule (s.updPort .supply f) = (carGrantRule s).updPort .supply f := by
  have allowed : carGrantAllowed (s.updPort .supply f) = carGrantAllowed s := rfl
  have found : (candidates (s.updPort .supply f)).find? (s.updPort .supply f).fitsNow =
      (candidates s).find? s.fitsNow := rfl
  rw [carGrantRule, allowed, found, carGrantRule]
  split
  · split
    · exact carGrant_updPort (fun same => by cases same) f
    · rfl
  · rfl

/-- The grant rule does not look at the supply port's interface. -/
theorem grantRule_supply (s : State) (f : PortIf → PortIf) :
    grantRule (s.updPort .supply f) = (grantRule s).updPort .supply f := by
  by_cases opened : s.gate.state = .opened
  · by_cases claims : s.gate.pendingClaim.isSome = true ∧ s.gate.fairness = none
    · obtain ⟨e, claim⟩ := Option.isSome_iff_exists.1 claims.1
      rw [grantRule_claim opened claim claims.2, grantRule_claim (s := s.updPort .supply f) opened claim claims.2]
      exact panelGrant_updPort (fun same => by cases same) e f
    · rw [grantRule_cars opened claims, grantRule_cars (s := s.updPort .supply f) opened claims]
      exact carGrantRule_supply s f
  · have shut : ¬ (s.updPort .supply f).gate.state = .opened := opened
    rw [grantRule, grantRule, if_neg opened, if_neg shut]

/-! ## The grant rule by its cases -/

theorem carGrantAllowed_of (phase : s.plan.phase = .recall ∨ s.plan.phase = .service)
    (calm : s.account.overcommit = .none) (link : s.supplyLink.link = .up) : carGrantAllowed s = true := by
  simp [carGrantAllowed, phase, calm, link]

theorem candidates_eq (s : State) : candidates s =
    if bypass s.store.active = true ∧ s.queue.headAged = false then s.queue.entries else s.queue.entries.take 1 := by
  simp [candidates]

/-- No candidate fits now: nothing is granted (R67). -/
theorem carGrantRule_none (none : ∀ c ∈ candidates s, s.fitsNow c = false) : carGrantRule s = s := by
  have nobody : (candidates s).find? s.fitsNow = .none :=
    List.find?_eq_none.2 fun c on => by rw [none c on]; decide
  rw [carGrantRule, nobody, ite_self]

/-- The first candidate that fits now is granted (R67, R90). -/
theorem carGrantRule_first (allowed : carGrantAllowed s = true) {before after : List CarIx}
    (offered : candidates s = before ++ c :: after) (unfit : ∀ d ∈ before, s.fitsNow d = false)
    (fits : s.fitsNow c = true) : carGrantRule s = carGrant c s := by
  have found : (candidates s).find? s.fitsNow = some c :=
    List.find?_eq_some_iff_append.2 ⟨fits, before, after, offered, fun d on => by rw [unfit d on]; rfl⟩
  rw [carGrantRule, if_pos allowed, found]

/-- What a car grant leaves, field by field. -/
theorem carGrant_ends (c : CarIx) (s : State) :
    (carGrant c s).gate = (s.unpermitted c).gate ∧ (carGrant c s).car c = (s.car c).granted ∧
    (∀ d, d ≠ c → (carGrant c s).car d = s.car d) ∧
    (carGrant c s).ports = (s.noticeCar c .permit).ports ∧
    (carGrant c s).queue.entries = s.queue.entries.filter (fun d => d != c) ∧ s.HeadFollows (carGrant c s) ∧
    carGrant c s = { s with
      cars := (carGrant c s).cars, ports := (carGrant c s).ports, queue := (carGrant c s).queue
      gate := (carGrant c s).gate } := by
  have gate : (carGrant c s).gate = (s.unpermitted c).gate := by rw [carGrant_eq, State.noticeCar_gate]
  have queue : (carGrant c s).queue = (removeEntry c s).queue := by
    rw [carGrant_eq, State.noticeCar_queue]; rfl
  refine ⟨gate, by rw [carGrant_car, if_pos rfl], fun d ne => by rw [carGrant_car, if_neg ne], ?_,
    carGrant_entries s c, headFollows_of_setEntries queue ?_, ?_⟩
  all_goals
    rw [carGrant_eq]
    have on : (s.unpermitted c).configured c = s.configured c := rfl
    simp only [State.noticeCar, on]
    split <;> rfl

/-! ## The recovery -/

/-- The gate opens, as an event of its own (R77). -/
theorem closeEvent_opened (settled : s.Settled) (state : s.gate.state = .recovery) :
    closeEvent {} s (openGate s) = grantRule (openGate s) := by
  have event : openGate s = s.withGate (openGate s).gate s.queue.headTimer s.queue.headAged := rfl
  rw [event, closeEvent_withGate settled, grantIfDue_opened (by rw [state]; decide)]

theorem supplyStart_eq (link : s.supplyLink.link = .up) :
    requestStart .supply s = s.supplyHeard.updPort .supply (.opened none none) := by
  have up : (s.updPort .supply (.opened none none)).supplyLink.link = .up := link
  rw [requestStart, linkUp, supplyLinkUp, if_pos up]
  rfl

theorem supplyStart_answered (link : s.supplyLink.link = .up) (o : ReqOutcome) :
    setOutcome .supply o (requestStart .supply s) = supplyAnswered o s := by
  rw [supplyStart_eq link, setOutcome, State.updPort_updPort]
  rfl

theorem supplyStart_settled (settled : s.Settled) (link : s.supplyLink.link = .up) :
    (requestStart .supply s).Settled := by
  rw [supplyStart_eq link]
  exact settled.of_same (.parts rfl rfl rfl rfl rfl) rfl

/-- Settles O33: the gate's opening is an event, and the grant rule that closes it decides one start or none. -/
theorem gateRecovers : Obligations.GateRecovers := by
  intro s settled opened follows
  have granted (base : State) (state : base.gate.state = .opened) : follows base (grantRule base) := by
    refine ⟨fun e claims claim => ?_, fun unclaimed barred => ?_, fun unclaimed none => ?_,
      fun unclaimed allowed before c after offered unfit fits => ?_⟩
    · exact grantRule_claim state claim claims.2
    · rw [grantRule_cars state unclaimed]
      refine carGrantRule_barred (Bool.eq_false_iff.2 fun may => barred ?_)
      exact (carGrantAllowed_iff base).1 may
    · rw [grantRule_cars state unclaimed]
      exact carGrantRule_none (by rw [candidates_eq]; exact none)
    · rw [grantRule_cars state unclaimed, carGrantRule_first (carGrantAllowed_of allowed.1 allowed.2.1 allowed.2.2)
        ((candidates_eq base).trans offered) unfit fits]
      exact carGrant_ends c base
  refine ⟨fun state timer => ?_, fun takes link state => ?_, fun takes link state => ?_⟩
  · refine ⟨_, ?_, granted (opened s) rfl⟩
    show execRecoveryExpiry s = _
    rw [execRecoveryExpiry, if_pos ⟨state, timer⟩, closeEvent_opened settled state]
    rfl
  all_goals
    have named : Request.ofCode .supply Request.recovered.code = some .recovered := by
      simp [Request.ofCode, requestsOf, commonRequests, supplyRequests, Request.code]
    have run : exec .recovered s = .next (setOutcome .supply .accepted
        (closeEvent {} (requestStart .supply s) (takeRecovered (requestStart .supply s)))) :=
      congrArg Host.Outcome.next (shiftOpcode_acts takes named rfl (by decide) rfl)
    have start := supplyStart_settled settled link
    have kept : (requestStart .supply s).gate = s.gate := by rw [supplyStart_eq link]; rfl
    rw [run]
  · refine ⟨_, ?_, granted (opened (supplyAnswered .accepted s)) rfl⟩
    rw [← supplyStart_answered link, takeRecovered, if_pos (kept ▸ state), closeEvent_opened start (kept ▸ state)]
    exact congrArg _ (grantRule_supply _ _).symm
  · rw [takeRecovered, if_neg (kept ▸ state), closeEvent_self start, supplyStart_answered link]

end Sys2Proof.Machine
end

section
/-!
PROOFS. A request of a car that comes whole with no argument; AT-SPEED (O20).
-/

namespace Sys2Proof.Machine

variable {s t : State} {c d : CarIx}

/-! ## The request as it is taken -/

section
variable (present : s.role c ≠ .lost ∨ s.plan.phase.generator = true)
include present

/-- The link of a car that is not LOST in START or MAINS is heard, and nothing else of its record moves (R50). -/
theorem requestStart_car : (requestStart (.car c) s).car c =
    { s.car c with link := .up, linkTimer := s.startTimer (tLink s.store.active) } := by
  show (carLinkUp c (s.updPort (.car c) (.opened none none))).car c = _
  rw [carLinkUp, State.updCar_car_same]
  refine if_neg fun lost => ?_
  have role : s.role c = .lost := lost.1
  have off : s.plan.phase.generator = false := lost.2
  rcases present with other | on
  · exact other role
  · rw [off] at on; cases on

theorem requestStart_role : (requestStart (.car c) s).role c = s.role c := by
  rw [State.role, requestStart_car present]; rfl

theorem requestStart_consistent (h : s.Consistent) : (requestStart (.car c) s).Consistent := by
  refine h.of_same rfl rfl rfl fun d => ?_
  by_cases same : d = c
  · subst same
    rw [State.role, State.trip, requestStart_car present]
    exact ⟨rfl, rfl, rfl, rfl, rfl⟩
  · have other : (requestStart (.car c) s).car d = s.car d := State.updCar_car_ne (d := d) _ _ same
    rw [State.role, State.trip, other]
    exact ⟨rfl, rfl, rfl, rfl, rfl⟩
end

theorem requestStart_trip (c : CarIx) (s : State) : (requestStart (.car c) s).trip c = s.trip c := by
  show ((carLinkUp c (s.updPort (.car c) (.opened none none))).car c).trip = _
  rw [carLinkUp, State.updCar_car_same]
  dsimp only
  split <;> rfl

theorem carStart_settled (h : s.Settled) (c : CarIx) : (requestStart (.car c) s).Settled :=
  h.of_same (requestStart_sameAccount s c) rfl

/-! ## The gate after the window of another -/

theorem Moves.unheld (m : Moves s t) (out : c ∉ s.queue.entries) (unheld : s.gate.holder ≠ .car c) :
    t.gate.holder ≠ .car c :=
  (Moves.keeps (P := fun u => c ∉ u.queue.entries ∧ u.gate.holder ≠ .car c)
    (fun _ _ kept k => ⟨k.unqueued kept.1, (k.gate_of_unqueued kept.1).2 kept.2⟩) m ⟨out, unheld⟩).2

/-- The window of a car that held the gate is over. -/
theorem State.Consistent.gateAfterWindow_unheld (h : s.Consistent) : (s.gateAfterWindow c).holder ≠ .car c := by
  unfold State.gateAfterWindow
  split
  · exact fun holder => by cases holder
  · rename_i other; exact fun holder => other ⟨h.holds holder, holder⟩

theorem State.gateAfterWindow_shut (shut : s.gate.state ≠ .opened) : (s.gateAfterWindow c).state ≠ .opened := by
  unfold State.gateAfterWindow
  split
  · exact (by decide : GateState.recovery ≠ .opened)
  · exact shut

/-- A car in motion is not PARKED. -/
theorem State.Consistent.moving_role (h : s.Consistent) (moves : (s.trip c).state.moving = true) :
    s.role c ≠ .parked ∧ s.role c ≠ .held := by
  rcases h.chargedRole c (.inr moves) with e | e | e <;> rw [e] <;> decide

/-! ## AT-SPEED -/

theorem Trip.charge_running {x : Trip} (runs : x.state = .running) :
    x.charge = (if x.kind = .motoring then x.n else 0) ∧ x.credit = (if x.kind = .motoring then 0 else x.ret) := by
  unfold Trip.charge Trip.credit
  rw [runs]
  cases x.kind <;> exact ⟨rfl, rfl⟩

theorem exec_atSpeed (h : ignores s (.car c) = false) : exec (.atSpeed c) s = .next (setOutcome (.car c) .accepted
    (closeEvent {} (requestStart (.car c) s) (atSpeed c (requestStart (.car c) s)))) := by
  have named : Request.ofCode (.car c) Request.atSpeed.code = some .atSpeed := by
    simp [Request.ofCode, requestsOf, commonRequests, carRequests, Request.code]
  exact congrArg Host.Outcome.next (shiftOpcode_acts h named rfl (by decide) rfl)

/-- What an event that began with AT-SPEED leaves of the car (R53, R70). -/
theorem atSpeed_left {v : State} (h : v.Consistent) (role : v.role c ≠ .lost)
    (starts : (v.trip c).state = .starting) (m : Moves (atSpeed c v) t) :
    ((t.trip c).state = .running ∧ t.role c = v.role c ∧ (t.car c).powered = (v.car c).powered) ∧
    c ∈ t.gate.stack ∧ t.gate.holder ≠ .car c ∧
    (v.gate.state ≠ .opened → t.gate = v.gateAfterWindow c) := by
  have moves : (v.trip c).state.moving = true := by rw [starts]; rfl
  have trips := State.TripsAgree.of_consistent h
  have unqueued := trips.not_queued (c := c) (by rw [starts]; decide)
  have unlisted := trips.not_listed (c := c) (h.moving_role moves).2
  rw [atSpeed_eq role starts] at m
  generalize made : { v.updTrip c (fun t => { t with state := .running }) with gate := v.gateAfterWindow c } = x at m
  have own : x.car c = { v.car c with trip := { v.trip c with state := .running } } := by
    rw [← made]
    exact State.updCar_car_same v c fun q => { q with trip := { q.trip with state := .running } }
  have gate : x.gate = v.gateAfterWindow c := by rw [← made]
  have queue : x.queue = v.queue := by rw [← made]; rfl
  have plan : x.plan = v.plan := by rw [← made]; rfl
  have sameRole : x.role c = v.role c := by rw [State.role, own]; rfl
  have state : (x.trip c).state = .running := by rw [State.trip, own]
  have kept := m.busy (c := c) (by rw [sameRole]; exact (h.moving_role moves).1) (by rw [state]; rfl)
    (by rw [queue]; exact unqueued) (not_listed_iff.2 (by rw [plan]; exact unlisted))
  refine ⟨⟨kept.state.trans state, kept.role.trans sameRole, kept.powered.trans (by rw [own])⟩,
    m.stacked ?_, m.unheld (by rw [queue]; exact unqueued) ?_, fun shut => ?_⟩
  · rw [gate, v.gateAfterWindow_stack]; exact (h.stackExact c).2 moves
  · rw [gate]; exact h.gateAfterWindow_unheld
  · rw [← gate]
    exact m.gate_of_shut (by rw [gate]; exact State.gateAfterWindow_shut shut)

/-- Settles O20: the trip goes on RUNNING, its window over, and no move of the event's end acts on it. -/
theorem atSpeedCompletes : Obligations.AtSpeedCompletes := by
  intro s c takes
  rw [exec_atSpeed takes]
  refine ⟨fun h role starts => ⟨_, rfl, ?_, ?_⟩, fun settled idle => ?_⟩
  · rw [← requestStart_answered]
    exact ((atSpeed_only (.refl _) c).trans (closeEvent_only {} _ _)).updPort (setOutcome_act .accepted) (.car c)
  · have record := requestStart_car (.inl role)
    have left := atSpeed_left (requestStart_consistent (.inl role) h)
      (by rw [requestStart_role (.inl role)]; exact role)
      (by rw [requestStart_trip]; exact starts) (closeEvent_moves {} (requestStart (.car c) s) _)
    have only := (atSpeed_only (.refl (requestStart (.car c) s)) c).trans
      (closeEvent_only {} (requestStart (.car c) s) _)
    unfold setOutcome
    generalize closeEvent {} (requestStart (.car c) s) (atSpeed c (requestStart (.car c) s)) = t at left only
    obtain ⟨⟨runs, sameRole, powered⟩, stacked, unheld, gate⟩ := left
    have figures := only.figures c
    rw [requestStart_trip] at figures
    simp only [Trip.figures, TripFigures.mk.injEq, Demand.mk.injEq] at figures
    obtain ⟨⟨-, -, kind, -, n, ret⟩, -⟩ := figures
    obtain ⟨charge, credit⟩ := Trip.charge_running runs
    rw [kind, n] at charge
    rw [kind, ret] at credit
    exact ⟨runs, sameRole.trans (requestStart_role (.inl role)), powered.trans (by rw [record]), stacked, unheld,
      gate, charge, credit⟩
  · have ignored : atSpeed c (requestStart (.car c) s) = requestStart (.car c) s := by
      refine if_neg fun due => ?_
      rcases idle with lost | other
      · exact due.1 ((requestStart_role (.inr lost.2)).trans lost.1)
      · rw [requestStart_trip] at due; exact other due.2
    rw [ignored, closeEvent_self (carStart_settled settled c), requestStart_answered]

end Sys2Proof.Machine
end

section
/-!
PROOFS. The end of a trip (R71, R72, R75, R76): the stages, the checks, and what the event's end leaves of the car; O21.
-/

namespace Sys2Proof.Machine

variable {s t v w z : State} {c d : CarIx}

/-! ## What a closing event leaves of the plan -/

/-- What RETURN asks of the plan: clearance and its timer. -/
def Plan.clearing (p : Plan) : Clearance × Timer := (p.clearance, p.returnTimer)

theorem Move.clearing (m : Move s t) : t.plan.clearing = s.plan.clearing := by
  cases m with
  | call e rest =>
    unfold Machine.callCar
    split
    · rfl
    · rw [State.noticeCar_plan]; rfl
  | endRecall => rw [endRecall_plan]; rfl
  | drop d r => rw [dropEntry_plan]
  | deselect d => rw [deselect_plan]; rfl
  | land => rw [orderToLand_plan]
  | landReverse => rw [orderToLand_plan]
  | select d => rw [selectCar_plan]; rfl
  | carGrant d => rw [carGrant_plan]
  | _ => rfl

theorem Moves.clearing (m : Moves s t) : t.plan.clearing = s.plan.clearing :=
  Moves.keeps (P := fun u => u.plan.clearing = s.plan.clearing) (fun _ _ kept k => k.clearing.trans kept) m rfl

/-- A car that no selection takes: PARKED, unpowered and out of the service order. -/
def State.Shelved (s : State) (c : CarIx) : Prop :=
  s.role c = .parked ∧ (s.car c).powered = false ∧ c ∉ s.plan.serviceOrder

/-- A car that a move leaves PARKED is as little in the service order as before. -/
theorem Move.parked_unserved (m : Move s t) (unlisted : listed s c = false) (parked : t.role c = .parked)
    (out : s.role c = .parked → c ∉ s.plan.serviceOrder) : c ∉ t.plan.serviceOrder := by
  have kept (role : t.role c = s.role c) (sub : c ∈ t.plan.serviceOrder → c ∈ s.plan.serviceOrder) :
      c ∉ t.plan.serviceOrder := fun on => out (role.symm.trans parked) (sub on)
  have landed (d : CarIx) {k : VictimKind} {n : Nat} : (orderToLand d k n s).role c = s.role c := by
    rw [State.role, orderToLand_car]
    split
    · rename_i same; rw [same]; rfl
    · rfl
  cases m with
  | call e rest list =>
    have ne : c ≠ e.car := fun same => not_listed_iff.1 unlisted e (by rw [list]; simp) same.symm
    refine kept (by rw [State.role, callCar_car, if_neg ne]; rfl) ?_
    unfold Machine.callCar
    split
    · exact fun on => (List.mem_filter.1 on).1
    · rw [State.noticeCar_plan]; exact id
  | endRecall => exact kept (by rw [State.role, endRecall_car]; rfl) (by rw [endRecall_plan]; exact id)
  | drop d r => exact kept (dropEntry_role d c r s) (by rw [dropEntry_plan]; exact id)
  | deselect d =>
    rw [deselect_plan]
    intro on
    obtain ⟨on, other⟩ := List.mem_filter.1 on
    have ne : c ≠ d := by simpa using other
    exact out (by rw [State.role, deselect_car, if_neg ne] at parked; exact parked) on
  | land d => exact kept (landed d) (by rw [orderToLand_plan]; exact id)
  | landReverse d => exact kept (landed d) (by rw [orderToLand_plan]; exact id)
  | select d =>
    rw [selectCar_plan]
    intro on
    rw [State.role, selectCar_car] at parked
    rcases List.mem_append.1 on with on | on
    · split at parked
      · cases parked
      · exact out parked on
    · rw [if_pos (List.mem_singleton.1 on)] at parked; cases parked
  | carGrant d => exact kept (carGrant_role ..) (by rw [carGrant_plan]; exact id)
  | _ => exact kept rfl id

/-- A car shelved stays shelved but for a selection. -/
theorem Moves.shelved (m : Moves s t) (unlisted : listed s c = false) (unqueued : c ∉ s.queue.entries)
    (h : s.Shelved c) : t.Shelved c ∨ t.role c = .service := by
  refine (Moves.keeps (P := fun u => (u.Shelved c ∨ u.role c = .service) ∧ listed u c = false ∧
    c ∉ u.queue.entries) (fun u w kept k => ?_) m ⟨.inl h, unlisted, unqueued⟩).1
  obtain ⟨was, unlisted, unqueued⟩ := kept
  refine ⟨?_, k.unlisted unlisted, k.unqueued unqueued⟩
  have stays : u.role c = .parked ∧ (u.car c).powered = false ∨ u.role c = .service :=
    was.imp_left fun k => ⟨k.1, k.2.1⟩
  have record : w.role c = .parked ∧ (w.car c).powered = false ∨ w.role c = .service := by
    have record := k.record c
    show (w.car c).role = .parked ∧ _ ∨ (w.car c).role = .service
    generalize w.car c = r at record
    cases record with
    | called some => exact absurd (listed_iff.2 some) (by rw [unlisted]; decide)
    | parked some => exact absurd (listed_iff.2 some) (by rw [unlisted]; decide)
    | deselected => exact .inl ⟨rfl, rfl⟩
    | selected => exact .inr rfl
    | granted allowed queued => exact absurd queued unqueued
    | _ => exact stays
  refine record.imp_left fun parked => ⟨parked.1, parked.2, k.parked_unserved unlisted parked.1 fun role => ?_⟩
  rcases was with shelved | serves
  · exact shelved.2.2
  · rw [role] at serves; cases serves

/-- A car out of the service and of the list of a manual selection is not in service when the event is closed
(R112, R113). -/
theorem closeEvent_unselected {k : Cause} {s0 x : State} (role : x.role c ≠ .service)
    (mode : x.plan.mode = .manual) (out : c ∉ x.plan.manualList) : (closeEvent k s0 x).role c ≠ .service := by
  have only := (shedded_moves k s0 x).only
  have away : (shedded k s0 x).role c ≠ .service := fun serves => role (shedded_service serves)
  have run {y : State} (away : y.role c ≠ .service) (sameMode : y.plan.mode = x.plan.mode)
      (sameList : y.plan.manualList = x.plan.manualList) : (selectionRun y).role c ≠ .service := by
    intro taken
    unfold selectionRun at taken
    split at taken
    · obtain ⟨front, back, order, -⟩ := foldl_trySelect_taken _ y away taken
      have listed : c ∈ selectionOrder y := by rw [order]; simp
      rw [selectionOrder, sameMode, mode] at listed
      exact out (sameList ▸ listed)
    · exact away taken
  have early := (grantIfDue_moves s0 (shedded k s0 x)).only
  rw [closeEvent_eq]
  show (selectAndGrant k s0 (shedded k s0 x)).role c ≠ .service
  generalize shedded k s0 x = y at only away early
  have selectFirst := run away only.mode.1 only.mode.2
  have grantFirst := run (by rw [grantIfDue_role]; exact away) (early.mode.1.trans only.mode.1)
    (early.mode.2.trans only.mode.2)
  unfold selectAndGrant
  split
  · obtain ⟨n, e | e⟩ := eitherOrder_cases (grantIfDue s0 (selectionRun y))
      (grantIfDue s0 (selectionRun (grantIfDue s0 y))) <;> rw [e]
    · exact fun serves => selectFirst (by rw [← grantIfDue_role s0]; exact serves)
    · exact fun serves => grantFirst (by rw [← grantIfDue_role s0]; exact serves)
  · rw [grantIfDue_role]; exact away

/-! ## The stages -/

/-- The record of a car whose trip has ended. -/
def CarRecord.stopped (r : CarRecord) : CarRecord := { r with trip := { r.trip with state := .none } }

/-- A pending exclusion or unavailability makes the car UNAVAILABLE when its trip ends (R62). -/
def CarRecord.awaits (r : CarRecord) : Bool := r.pendExcl || r.pendUnavail

theorem tripEndStages_car (c : CarIx) (v : State) : (tripEndStages c v).car c =
    if (v.car c).awaits then { (v.car c).stopped with
      powered := false, role := .unavailable, pendExcl := false, pendUnavail := false, pendDesel := false
      recallTimer := none, slotStart := none }
    else (v.car c).stopped := by
  show (applyPending c (endTrip c v)).car c = _
  have own : (endTrip c v).car c = (v.car c).stopped := by rw [endTrip_car, if_pos rfl]; rfl
  have pending : (((endTrip c v).car c).pendExcl || ((endTrip c v).car c).pendUnavail) = (v.car c).awaits := by
    rw [own]; rfl
  unfold applyPending
  rw [pending]
  split
  · rw [makeUnavailable_eq, leavePlan_car, if_pos rfl, State.updCar_car_same]
    show { (endTrip c v).car c with
      powered := false, role := .unavailable, pendExcl := false, pendUnavail := false, pendDesel := false
      recallTimer := none, slotStart := none } = _
    rw [own]
  · exact own

theorem applyPending_rest (c : CarIx) (v : State) : (applyPending c v).gate = v.gate ∧
    (applyPending c v).queue = v.queue ∧ (applyPending c v).plan.recallList.Sublist v.plan.recallList ∧
    (applyPending c v).plan.phase = v.plan.phase ∧ (applyPending c v).plan.clearing = v.plan.clearing := by
  unfold applyPending
  split
  · exact ⟨rfl, rfl, List.filter_sublist, rfl, rfl⟩
  · exact ⟨rfl, rfl, .refl _, rfl, rfl⟩

/-- What of the part the stages leave but for the car's record. -/
structure State.Stopped (v z : State) (c : CarIx) : Prop where
  gate : z.gate = (endTrip c v).gate
  queue : z.queue = v.queue
  list : z.plan.recallList.Sublist v.plan.recallList
  phase : z.plan.phase = v.plan.phase
  clearing : z.plan.clearing = v.plan.clearing
  spared : ∀ x ∈ z.shed.victims, x.car ≠ c
  plan : (v.car c).awaits = false → z.plan = v.plan

theorem tripEndStages_stopped (c : CarIx) (v : State) : v.Stopped (tripEndStages c v) c := by
  obtain ⟨gate, queue, list, phase, clearing⟩ := applyPending_rest c (endTrip c v)
  have plan := endTrip_plan c v
  rw [plan] at list phase clearing
  refine ⟨gate, queue.trans (State.CarAgrees.endTrip_queue c v), list, phase, clearing, fun x on => ?_,
    fun none => ?_⟩
  · have on : x ∈ (applyPending c (endTrip c v)).shed.victims.filter fun v => v.car != c := on
    simpa using (List.mem_filter.1 on).2
  · have pending : (((endTrip c v).car c).pendExcl || ((endTrip c v).car c).pendUnavail) = false := by
      rw [endTrip_car, if_pos rfl]; exact none
    show (applyPending c (endTrip c v)).plan = v.plan
    rw [applyPending, pending, if_neg (by decide), plan]

theorem tripEndStages_quit (h : v.Consistent) (moves : (v.trip c).state.moving = true) :
    (tripEndStages c v).Quit c := by
  have stopped := tripEndStages_stopped c v
  have off := endTrip_gate (c := c) h.holds
  have waits : (v.trip c).state ≠ .waiting := fun waits => by rw [waits] at moves; cases moves
  refine ⟨?_, ?_, ?_, ?_, stopped.spared⟩
  · rw [State.trip, tripEndStages_car]; split <;> rfl
  · rw [stopped.queue]; exact (State.TripsAgree.of_consistent h).not_queued waits
  · rw [stopped.gate]; exact off.1
  · rw [stopped.gate]; exact off.2

theorem tripEndStages_unlisted (h : v.Consistent) (moves : (v.trip c).state.moving = true) :
    listed (tripEndStages c v) c = false := by
  have unlisted := (State.TripsAgree.of_consistent h).not_listed (c := c) (h.moving_role moves).2
  exact not_listed_iff.2 fun e on => unlisted e ((tripEndStages_stopped c v).list.subset on)

/-! ## Between the stages and the checks -/

/-- The state on which the checks of a trip's end are made: the one the stages leave, or, for a car in role RECALL,
the one that the grant rule leaves after them (R76, log 6). -/
structure State.Paused (z w : State) : Prop where
  moves : Moves z w
  plan : w.plan = z.plan
  stack : z.plan.phase = .returning → w.gate.stack = z.gate.stack

theorem State.Paused.refl (z : State) : z.Paused z := ⟨.refl, rfl, fun _ => rfl⟩

theorem grantRule_plan (s : State) : (grantRule s).plan = s.plan := by
  have cars : (carGrantRule s).plan = s.plan := by
    unfold carGrantRule
    split
    · split
      · exact carGrant_plan ..
      · rfl
    · rfl
  unfold grantRule
  split
  · split
    · split
      · rfl
      · exact cars
    · exact cars
  · rfl

/-- In RETURN no car is granted (R67). -/
theorem grantRule_stack (phase : s.plan.phase = .returning) : (grantRule s).gate.stack = s.gate.stack := by
  have cars : carGrantRule s = s := carGrantRule_barred (by simp [carGrantAllowed, phase])
  unfold grantRule
  rw [cars]
  split
  · split
    · split <;> rfl
    · rfl
  · rfl

theorem earlyGrant_paused (v z : State) : z.Paused (earlyGrant v z) := by
  obtain ⟨-, -, plan, gate⟩ := evaluate_eq z
  unfold earlyGrant
  dsimp only
  split
  · exact .refl z
  · split
    · exact .refl z
    · refine ⟨(evaluate_moves z).trans (grantIfDue_moves v _), ?_, fun phase => ?_⟩
      · unfold grantIfDue
        split
        · rw [grantRule_plan, plan]
        · exact plan
      · unfold grantIfDue
        split
        · rw [grantRule_stack (by rw [plan]; exact phase), gate]
        · rw [gate]

theorem earlyGrant_role (v z : State) (c : CarIx) : (earlyGrant v z).role c = z.role c := by
  unfold earlyGrant
  dsimp only
  split
  · rfl
  · split
    · rfl
    · rw [grantIfDue_role, evaluate_role]

/-- The parking check takes no car into service. -/
theorem parkingCheck_unserved (role : s.role c ≠ .service) : (parkingCheck c s).role c ≠ .service := by
  have parked : (park c s).role c ≠ .service := by rw [State.role, park_car, if_pos rfl]; exact fun k => by cases k
  unfold parkingCheck
  split
  · split
    · split
      · exact parked
      · exact role
    · split
      · exact parked
      · exact role
    · split
      · exact parked
      · rw [State.role, leavePlan_car, if_pos rfl, State.updCar_car_same]
        exact fun k => by cases k
    · exact role
  · exact role

/-- A trip's end is its stages, the checks and the closing of its event, whichever order of the parking and the grant
is taken (R76). -/
theorem tripEnded_eq (c : CarIx) (v : State) : ∃ w n, (tripEndStages c v).Paused w ∧
    ((tripEndStages c v).role c ≠ .recall → w = tripEndStages c v) ∧
    tripEnded c v = { closeEvent {} v (tripEndChecks c w) with freeIx := n } := by
  unfold tripEnded
  dsimp only
  generalize tripEndStages c v = z
  have first : ∃ w n, z.Paused w ∧ (z.role c ≠ .recall → w = z) ∧
      closeEvent {} v (tripEndChecks c z) = { closeEvent {} v (tripEndChecks c w) with freeIx := n } :=
    ⟨z, (closeEvent {} v (tripEndChecks c z)).freeIx, .refl z, fun _ => rfl, rfl⟩
  split
  · rename_i role
    have served {u : State} (role : u.role c ≠ .service) : deselectionCheck c u = u := if_neg fun due => role due.1
    rw [served (u := z) (by rw [role]; decide)]
    have early := earlyGrant_paused v z
    have granted : clearanceCheck (parkingCheck c (earlyGrant v z)) = tripEndChecks c (earlyGrant v z) := by
      rw [tripEndChecks, served (parkingCheck_unserved ?_)]
      rw [earlyGrant_role, role]; decide
    rw [granted]
    obtain ⟨n, e | e⟩ := eitherOrder_cases (closeEvent {} v (tripEndChecks c z))
      (closeEvent {} v (tripEndChecks c (earlyGrant v z)))
    · exact ⟨z, n, .refl z, fun _ => rfl, e⟩
    · exact ⟨earlyGrant v z, n, early, fun other => absurd role other, e⟩
  · exact first

/-! ## The checks -/

/-- Nothing of the gate, the queue or the victims moves, and the recall list only loses entries. -/
structure State.Checked (w y : State) : Prop where
  gate : y.gate = w.gate
  queue : y.queue = w.queue
  shed : y.shed = w.shed
  list : y.plan.recallList.Sublist w.plan.recallList

theorem State.Checked.refl (w : State) : w.Checked w := ⟨rfl, rfl, rfl, .refl _⟩

theorem State.Checked.trans {y u : State} (h : w.Checked y) (k : y.Checked u) : w.Checked u :=
  ⟨k.gate.trans h.gate, k.queue.trans h.queue, k.shed.trans h.shed, k.list.trans h.list⟩

theorem leavePlan_checked (c : CarIx) (f : CarRecord → CarRecord) (w : State) :
    w.Checked (leavePlan c (w.updCar c f)) := ⟨rfl, rfl, rfl, List.filter_sublist⟩

theorem parkingCheck_checked (c : CarIx) (w : State) : w.Checked (parkingCheck c w) := by
  have parked : w.Checked (park c w) := leavePlan_checked ..
  unfold parkingCheck
  split
  · split
    · split
      · exact parked
      · exact .refl w
    · split
      · exact parked
      · exact .refl w
    · split
      · exact parked
      · exact leavePlan_checked ..
    · exact .refl w
  · exact .refl w

/-- The deselection of a car with no trip. -/
theorem deselect_still (idle : (w.trip c).state = .none) : deselect c w =
    (leavePlan c (w.updCar c fun r => { r with powered := false, role := .parked, pendDesel := false })).noticeCar c
      .park := by
  have kept : dropEntry c .role w = w := if_neg (by rw [idle]; decide)
  rw [deselect_eq, kept]

theorem deselect_checked (idle : (w.trip c).state = .none) : w.Checked (deselect c w) := by
  rw [deselect_still idle]
  refine (leavePlan_checked c (fun r => { r with powered := false, role := .parked, pendDesel := false })
    w).trans ⟨?_, ?_, ?_, ?_⟩
  · rw [State.noticeCar_gate]
  · rw [State.noticeCar_queue]
  · rw [State.noticeCar_shed]
  · rw [State.noticeCar_plan]

theorem deselectionCheck_checked (c : CarIx) (w : State) : w.Checked (deselectionCheck c w) := by
  unfold deselectionCheck
  split
  · rename_i due; exact deselect_checked due.2.2
  · exact .refl w

theorem clearanceCheck_checked (w : State) : w.Checked (clearanceCheck w) := by
  unfold clearanceCheck
  split
  · exact ⟨rfl, rfl, rfl, .refl _⟩
  · exact .refl w

theorem tripEndChecks_checked (c : CarIx) (w : State) : w.Checked (tripEndChecks c w) :=
  ((parkingCheck_checked c w).trans (deselectionCheck_checked c _)).trans (clearanceCheck_checked _)

/-- A car in no role that the checks look at is left as it is. -/
theorem tripEndChecks_car_of_role (role : w.role c ≠ .recall ∧ w.role c ≠ .service) :
    (tripEndChecks c w).car c = w.car c := by
  have parking : parkingCheck c w = w := if_neg fun due => role.1 due.1
  have deselection : deselectionCheck c w = w := if_neg fun due => role.2 due.1
  rw [tripEndChecks, parking, deselection, clearanceCheck_car]

/-- A car in role RECALL is left to its parking check. -/
theorem tripEndChecks_car_of_recall (role : w.role c = .recall) :
    (tripEndChecks c w).car c = (parkingCheck c w).car c := by
  have deselection : deselectionCheck c (parkingCheck c w) = parkingCheck c w :=
    if_neg fun due => parkingCheck_unserved (by rw [role]; decide) due.1
  rw [tripEndChecks, deselection, clearanceCheck_car]

/-- A car in role SERVICE is left to its deselection check. -/
theorem tripEndChecks_of_service (role : w.role c = .service) :
    tripEndChecks c w = clearanceCheck (deselectionCheck c w) := by
  have parking : parkingCheck c w = w := if_neg fun due => by rw [role] at due; cases due.1
  rw [tripEndChecks, parking]

theorem Phase.of_loud {p : Phase} (loud : p.quiet = false) : p = .recall ∨ p = .service ∨ p = .returning := by
  cases p <;> simp_all [Phase.quiet]

/-- The parking check of a recall car whose trip is over, by the place where it stands (R108). -/
theorem parkingCheck_landed (role : w.role c = .recall) (idle : (w.trip c).state = .none)
    (landed : (w.car c).position = .atRecall) (loud : w.plan.phase.quiet = false) : parkingCheck c w = park c w := by
  rw [parkingCheck, if_pos ⟨role, idle⟩]
  rcases Phase.of_loud loud with phase | phase | phase <;> rw [phase] <;> exact if_pos landed

theorem parkingCheck_returning (role : w.role c = .recall) (idle : (w.trip c).state = .none)
    (away : (w.car c).position ≠ .atRecall) (phase : w.plan.phase = .returning) : parkingCheck c w =
      leavePlan c (w.updCar c fun r => { r with powered := false, role := .held }) := by
  rw [parkingCheck, if_pos ⟨role, idle⟩, phase]
  exact if_neg away

theorem parkingCheck_away (away : (w.car c).position ≠ .atRecall) (phase : w.plan.phase ≠ .returning) :
    parkingCheck c w = w := by
  unfold parkingCheck
  split
  · split
    · rfl
    · rfl
    · rename_i returning; exact absurd returning phase
    · rfl
  · rfl

/-! ## What the event leaves -/

/-- With nothing pending the car keeps its record, its trip over. -/
theorem tripEndStages_record (none : (v.car c).awaits = false) :
    (tripEndStages c v).car c = (v.car c).stopped := by rw [tripEndStages_car, none, if_neg (by decide)]


/-- What a trip's end finds: a consistent state and a trip in motion, of a car that is not LOST. -/
structure State.Ending (v : State) (c : CarIx) : Prop where
  consistent : v.Consistent
  present : v.role c ≠ .lost
  moves : (v.trip c).state.moving = true

section Ending

variable (h : v.Ending c) (pause : (tripEndStages c v).Paused w) (m : Moves (tripEndChecks c w) t)

section
include h

theorem State.Ending.loud : v.plan.phase.quiet = false := by
  refine Bool.eq_false_iff.2 fun quiet => ?_
  have moves := h.moves
  rw [((h.consistent.quiet quiet).2 c).1] at moves
  cases moves

theorem State.Ending.planned : v.role c = .recall ∨ v.role c = .service := by
  rcases h.consistent.chargedRole c (.inr h.moves) with e | e | e
  · exact .inl e
  · exact .inr e
  · exact absurd e h.present

/-- A car that the stages leave in no role on which a selection or a deselection acts. -/
theorem State.Ending.apart (role : (tripEndStages c v).role c ≠ .service)
    (other : (tripEndStages c v).role c ≠ .parked) : (tripEndStages c v).Apart c :=
  have quit := tripEndStages_quit h.consistent h.moves
  ⟨⟨other, role⟩, by rw [quit.idle]; decide, quit.unqueued, tripEndStages_unlisted h.consistent h.moves⟩
end

section
include h pause

theorem tripEnd_paused : w.Quit c ∧ listed w c = false :=
  ⟨pause.moves.quit (tripEndStages_quit h.consistent h.moves), not_listed_iff.2 (by
    rw [pause.plan]; exact not_listed_iff.1 (tripEndStages_unlisted h.consistent h.moves))⟩

theorem tripEndChecks_unlisted : listed (tripEndChecks c w) c = false :=
  not_listed_iff.2 fun e on => not_listed_iff.1 (tripEnd_paused h pause).2 e
    ((tripEndChecks_checked c w).list.subset on)

theorem tripEndChecks_out : c ∉ (tripEndChecks c w).queue.entries ∧ c ∉ (tripEndChecks c w).gate.stack ∧
    (tripEndChecks c w).gate.holder ≠ .car c ∧ ∀ x ∈ (tripEndChecks c w).shed.victims, x.car ≠ c := by
  have quit := (tripEnd_paused h pause).1
  have checked := tripEndChecks_checked c w
  refine ⟨?_, ?_, ?_, ?_⟩
  · rw [checked.queue]; exact quit.unqueued
  · rw [checked.gate]; exact quit.unstacked
  · rw [checked.gate]; exact quit.unheld
  · rw [checked.shed]; exact quit.spared

end
end Ending

end Sys2Proof.Machine
end

section
/-!
PROOFS. What the end of a trip leaves of the car, clause by clause (R62, R108, R114, R116); O21.
-/

namespace Sys2Proof.Machine

variable {s t v w z : State} {c d : CarIx}

theorem parkingCheck_trip (c : CarIx) (w : State) : (parkingCheck c w).trip c = w.trip c := by
  have parked : (park c w).trip c = w.trip c := by rw [State.trip, park_car, if_pos rfl]; rfl
  unfold parkingCheck
  split
  · split
    · split
      · exact parked
      · rfl
    · split
      · exact parked
      · rfl
    · split
      · exact parked
      · rw [State.trip, leavePlan_car, if_pos rfl, State.updCar_car_same]; rfl
    · rfl
  · rfl

theorem deselectionCheck_idle (idle : (w.trip c).state = .none) : ((deselectionCheck c w).trip c).state = .none := by
  unfold deselectionCheck
  split
  · rw [deselect_trip, State.TripsAgree.dropEntry_idle (by rw [idle]; rfl)]
  · exact idle

theorem tripEndChecks_idle (idle : (w.trip c).state = .none) : ((tripEndChecks c w).trip c).state = .none := by
  rw [tripEndChecks, State.trip, clearanceCheck_car]
  exact deselectionCheck_idle (by rw [parkingCheck_trip]; exact idle)

theorem parkingCheck_clearing (c : CarIx) (w : State) : (parkingCheck c w).plan.phase = w.plan.phase ∧
    (parkingCheck c w).plan.clearing = w.plan.clearing := by
  unfold parkingCheck
  split
  · split
    · split <;> exact ⟨rfl, rfl⟩
    · split <;> exact ⟨rfl, rfl⟩
    · split <;> exact ⟨rfl, rfl⟩
    · exact ⟨rfl, rfl⟩
  · exact ⟨rfl, rfl⟩

theorem deselectionCheck_clearing (c : CarIx) (w : State) : (deselectionCheck c w).plan.phase = w.plan.phase ∧
    (deselectionCheck c w).plan.clearing = w.plan.clearing := by
  unfold deselectionCheck
  split
  · rw [deselect_plan]; exact ⟨rfl, rfl⟩
  · exact ⟨rfl, rfl⟩

/-- What the event closes with. -/
structure State.Ends (v w t : State) (c : CarIx) : Prop where
  ending : v.Ending c
  pause : (tripEndStages c v).Paused w
  same : (tripEndStages c v).role c ≠ .recall → w = tripEndStages c v
  moves : Moves (tripEndChecks c w) t

namespace State.Ends

variable (h : v.Ends w t c)
include h

theorem quit : t.Quit c := by
  obtain ⟨unqueued, unstacked, unheld, spared⟩ := tripEndChecks_out h.ending h.pause
  have idle := tripEndChecks_idle (tripEnd_paused h.ending h.pause).1.idle
  exact h.moves.quit ⟨idle, unqueued, unstacked, unheld, spared⟩

theorem gate (shut : v.gate.state ≠ .opened) : t.gate = { v.gateAfterWindow c with
    stack := v.gate.stack.filter (fun e => e != c) } := by
  have ended : (tripEndStages c v).gate = { v.gateAfterWindow c with
      stack := v.gate.stack.filter (fun e => e != c) } := by
    rw [(tripEndStages_stopped c v).gate, endTrip_eq]
  have still : (tripEndStages c v).gate.state ≠ .opened := by
    rw [ended]; exact State.gateAfterWindow_shut shut
  have checked : (tripEndChecks c w).gate = (tripEndStages c v).gate := by
    rw [(tripEndChecks_checked c w).gate, h.pause.moves.gate_of_shut still]
  rw [h.moves.gate_of_shut (by rw [checked]; exact still), checked, ended]

/-- A car that the checks leave in no role on which a selection or a deselection acts keeps its record. -/
theorem left (away : (tripEndChecks c w).role c ≠ .service) (other : (tripEndChecks c w).role c ≠ .parked) :
    (tripEndChecks c w).LeftApart t c := by
  have idle := tripEndChecks_idle (tripEnd_paused h.ending h.pause).1.idle
  exact h.moves.leftApart ⟨⟨other, away⟩, by rw [idle]; decide, (tripEndChecks_out h.ending h.pause).1,
    tripEndChecks_unlisted h.ending h.pause⟩

/-- A pending exclusion or unavailability takes effect (R62). -/
theorem pending (awaits : (v.car c).awaits = true) : t.role c = .unavailable ∧ (t.car c).powered = false ∧
    (t.car c).pendExcl = false ∧ (t.car c).pendUnavail = false ∧ (t.car c).pendDesel = false := by
  have own := tripEndStages_car c v
  rw [if_pos awaits] at own
  have role : (tripEndStages c v).role c = .unavailable := by rw [State.role, own]
  have record : (tripEndChecks c w).car c = (tripEndStages c v).car c := by
    rw [h.same (by rw [role]; decide)]
    exact tripEndChecks_car_of_role (by rw [role]; decide)
  have checked : (tripEndChecks c w).role c = .unavailable := (congrArg CarRecord.role record).trans role
  have left := (h.left (by rw [checked]; decide) (by rw [checked]; decide)).record
  rw [record, own] at left
  rw [State.role, left]
  exact ⟨rfl, rfl, rfl, rfl, rfl⟩

section

variable (none : (v.car c).awaits = false)
include none

theorem plan : w.plan = v.plan := h.pause.plan.trans ((tripEndStages_stopped c v).plan none)

section

variable (role : v.role c = .recall)
include role

/-- Before its parking check a recall car's record is as it was, its trip over. -/
theorem recalled : ∃ b, w.car c = (v.car c).stopped.ordered b := by
  have own := tripEndStages_record none
  have same : (tripEndStages c v).role c = .recall := by rw [State.role, own]; exact role
  have left := h.pause.moves.leftApart (h.ending.apart (by rw [same]; decide) (by rw [same]; decide))
  exact ⟨_, own ▸ left.record⟩

theorem parking : w.role c = .recall ∧ (w.trip c).state = .none ∧ (w.car c).position = (v.car c).position := by
  obtain ⟨b, record⟩ := h.recalled none role
  rw [State.role, State.trip, record]
  exact ⟨role, rfl, rfl⟩

/-- A recall car at its landing parks, or is selected since (R108). -/
theorem landed (at_ : (v.car c).position = .atRecall) : t.AtLanding c := by
  obtain ⟨recalled, idle, position⟩ := h.parking none role
  have checked : (tripEndChecks c w).car c = (park c w).car c := by
    rw [tripEndChecks_car_of_recall recalled, parkingCheck_landed recalled idle (position.trans at_)
      (by rw [h.plan none]; exact h.ending.loud)]
  rw [park_car, if_pos rfl] at checked
  have stands : (tripEndChecks c w).AtLanding c := .inl (by rw [State.role, checked]; exact ⟨rfl, rfl⟩)
  exact (h.moves.landed stands (tripEndChecks_out h.ending h.pause).1 (tripEndChecks_unlisted h.ending h.pause)
    (by rw [checked]) (by rw [checked])).1

/-- Elsewhere in RETURN it is HELD (R75, R108). -/
theorem returned (away : (v.car c).position ≠ .atRecall) (phase : v.plan.phase = .returning) :
    t.role c = .held ∧ (t.car c).powered = false ∧ listed t c = false ∧ (t.car c).slotStart = .none := by
  obtain ⟨recalled, idle, position⟩ := h.parking none role
  have checked := tripEndChecks_car_of_recall recalled
  rw [parkingCheck_returning recalled idle (by rw [position]; exact away) (by rw [h.plan none]; exact phase),
    leavePlan_car, if_pos rfl, State.updCar_car_same] at checked
  have held : (tripEndChecks c w).role c = .held := by rw [State.role, checked]
  obtain ⟨apart, record⟩ := h.left (by rw [held]; decide) (by rw [held]; decide)
  rw [checked] at record
  rw [State.role, record]
  exact ⟨rfl, rfl, apart.unlisted, rfl⟩

/-- Elsewhere in another phase it stays as it is (R72, R108). -/
theorem stays (away : (v.car c).position ≠ .atRecall) (phase : v.plan.phase ≠ .returning) :
    t.role c = .recall ∧ (t.car c).powered = (v.car c).powered ∧ (t.car c).slotStart = (v.car c).slotStart := by
  obtain ⟨b, own⟩ := h.recalled none role
  obtain ⟨recalled, idle, position⟩ := h.parking none role
  have checked := tripEndChecks_car_of_recall recalled
  rw [parkingCheck_away (by rw [position]; exact away) (by rw [h.plan none]; exact phase), own] at checked
  have recalled : (tripEndChecks c w).role c = .recall := by rw [State.role, checked]; exact role
  obtain ⟨apart, record⟩ := h.left (by rw [recalled]; decide) (by rw [recalled]; decide)
  rw [checked] at record
  rw [State.role, record]
  exact ⟨role, rfl, rfl⟩

end

/-- A service car with a pending deselection is deselected (R114). -/
theorem deselected (role : v.role c = .service) (desel : (v.car c).pendDesel = true) :
    (tripEndChecks c w).Shelved c ∧ (tripEndChecks c w).plan.mode = v.plan.mode ∧
    (tripEndChecks c w).plan.manualList = v.plan.manualList ∧ (t.car c).pendDesel = false ∧
    (v.configured c = true → t.hasNotice (.car c) CarNotice.park.number = true) := by
  have own := tripEndStages_record none
  have stages : (tripEndStages c v).role c = .service := by rw [State.role, own]; exact role
  have same : w = tripEndStages c v := h.same (by rw [stages]; decide)
  rw [← same] at own
  have serves : w.role c = .service := by rw [State.role, own]; exact role
  have idle : (w.trip c).state = .none := by rw [State.trip, own]; rfl
  have due : deselectionCheck c w = deselect c w := if_pos ⟨serves, by rw [own]; exact desel, idle⟩
  have checked := tripEndChecks_of_service serves
  rw [due] at checked
  have record : (tripEndChecks c w).car c = (deselect c w).car c := by rw [checked, clearanceCheck_car]
  rw [deselect_car, if_pos rfl] at record
  have plan := h.plan none
  have only : OnlyDecisions (deselect c w) (tripEndChecks c w) := checked ▸ clearanceCheck_only (.refl _)
  refine ⟨⟨?_, ?_, ?_⟩, ?_, ?_, h.moves.pendDesel_none (by rw [record]), fun on => ?_⟩
  · rw [State.role, record]
  · rw [record]
  · rw [checked, (clearanceCheck_others _).2.2.2.1, deselect_plan]
    simp
  · rw [only.mode.1, deselect_plan, plan]
  · rw [only.mode.2, deselect_plan, plan]
  · refine (only.trans h.moves.only).hasNotice ?_
    rw [deselect_still idle]
    refine State.hasNotice_noticeCar ?_ .park
    have only := (tripEndStages_only (.refl v) c).trans h.pause.moves.only
    show w.configured c = true
    rw [State.configured_of_store only.store]
    exact on

end

/-! ## Clearance -/

/-- Before the clearance check: the phase, the clearance and the stack are what the trip's end left (R116). -/
theorem clearing (phase : v.plan.phase = .returning) : ∃ y, tripEndChecks c w = clearanceCheck y ∧
    y.plan.phase = .returning ∧ y.plan.clearing = v.plan.clearing ∧
    y.gate.stack = v.gate.stack.filter (fun e => e != c) := by
  have stopped := tripEndStages_stopped c v
  refine ⟨deselectionCheck c (parkingCheck c w), rfl, ?_, ?_, ?_⟩
  · rw [(deselectionCheck_clearing c _).1, (parkingCheck_clearing c w).1, h.pause.plan, stopped.phase, phase]
  · rw [(deselectionCheck_clearing c _).2, (parkingCheck_clearing c w).2, h.pause.plan, stopped.clearing]
  · have gate := (deselectionCheck_checked c (parkingCheck c w)).gate.trans (parkingCheck_checked c w).gate
    rw [gate, h.pause.stack (stopped.phase.trans phase), stopped.gate, endTrip_eq]

theorem cleared (phase : v.plan.phase = .returning) (clearance : v.plan.clearance = .notClear) :
    ((∀ e ∈ v.gate.stack, e = c) → t.plan.clearance = .clear ∧ t.plan.returnTimer = none ∧
      t.hasNotice .supply SupplyNotice.clear.number = true) ∧
    ((∃ e ∈ v.gate.stack, e ≠ c) →
      t.plan.clearance = .notClear ∧ t.plan.returnTimer = v.plan.returnTimer) := by
  obtain ⟨y, checks, phase, clearing, stack⟩ := h.clearing phase
  have kept := h.moves.clearing
  obtain ⟨sameClearance, sameTimer⟩ := Prod.mk.inj clearing
  refine ⟨fun last => ?_, fun ⟨e, on, ne⟩ => ?_⟩
  · have empty : y.gate.stack = [] := by
      rw [stack, List.filter_eq_nil_iff]
      intro e on
      simp [last e on]
    have told := h.moves.only.hasNotice (p := .supply) (n := SupplyNotice.clear.number)
    rw [checks, clearanceCheck, if_pos ⟨phase, sameClearance.trans clearance, empty⟩] at kept told
    obtain ⟨cleared, timer⟩ := Prod.mk.inj kept
    exact ⟨cleared, timer, told (State.hasNotice_noticeSupply _ _)⟩
  · have more : y.gate.stack ≠ [] := by
      rw [stack]
      exact List.ne_nil_of_mem (List.mem_filter.2 ⟨on, by simpa using ne⟩)
    rw [checks, clearanceCheck, if_neg fun due => more due.2.2] at kept
    obtain ⟨same, timer⟩ := Prod.mk.inj (kept.trans clearing)
    exact ⟨same.trans clearance, timer⟩

end State.Ends

/-! ## The statement -/

/-- The end of a trip as an event. -/
theorem tripEnded_ends (h : v.Ending c) : ∃ w, v.Ends w (tripEnded c v) c ∧
    ((tripEndChecks c w).role c ≠ .service → (tripEndChecks c w).plan.mode = .manual →
      c ∉ (tripEndChecks c w).plan.manualList → (tripEnded c v).role c ≠ .service) := by
  obtain ⟨w, n, pause, same, ended⟩ := tripEnded_eq c v
  refine ⟨w, ⟨h, pause, same, ?_⟩, fun role mode out => ?_⟩
  · rw [ended]
    exact (closeEvent_moves {} v (tripEndChecks c w)).tail (.draw n)
  · rw [ended]
    exact closeEvent_unselected role mode out

theorem exec_startFail (takes : ignores s (.car c) = false) : exec (.startFail c) s =
    .next (setOutcome (.car c) .accepted (startFailed c (requestStart (.car c) s))) := by
  have named : Request.ofCode (.car c) Request.startFail.code = some .startFail := by
    simp [Request.ofCode, requestsOf, commonRequests, carRequests, Request.code]
  exact congrArg Host.Outcome.next (shiftOpcode_acts takes named rfl (by decide) rfl)

theorem exec_stopped (takes : ignores s (.car c) = false) : exec (.stopped c) s =
    .next (setOutcome (.car c) .accepted (carStopped c (requestStart (.car c) s))) := by
  have named : Request.ofCode (.car c) Request.stopped.code = some .stopped := by
    simp [Request.ofCode, requestsOf, commonRequests, carRequests, Request.code]
  exact congrArg Host.Outcome.next (shiftOpcode_acts takes named rfl (by decide) rfl)

theorem exec_tripEnd {i : Instr} (takes : ignores s (.car c) = false) (h : s.Consistent) (role : s.role c ≠ .lost)
    (ends : i = .startFail c ∧ (s.trip c).state = .starting ∨
      i = .stopped c ∧ (s.trip c).state.moving = true) :
    exec i s = .next (setOutcome (.car c) .accepted (tripEnded c (requestStart (.car c) s))) ∧
    (requestStart (.car c) s).Ending c := by
  have present : (requestStart (.car c) s).role c ≠ .lost := by rw [requestStart_role (.inl role)]; exact role
  have trip := requestStart_trip c s
  have ending (moves : (s.trip c).state.moving = true) : (requestStart (.car c) s).Ending c :=
    ⟨requestStart_consistent (.inl role) h, present, by rw [trip]; exact moves⟩
  rcases ends with ⟨rfl, state⟩ | ⟨rfl, state⟩
  · have ended : startFailed c (requestStart (.car c) s) = tripEnded c (requestStart (.car c) s) :=
      if_pos ⟨present, by rw [trip]; exact state⟩
    exact ⟨(exec_startFail takes).trans (by rw [ended]), ending (by rw [state]; rfl)⟩
  · have ended : carStopped c (requestStart (.car c) s) = tripEnded c (requestStart (.car c) s) :=
      if_pos ⟨present, by rw [trip]; exact state⟩
    exact ⟨(exec_stopped takes).trans (by rw [ended]), ending state⟩

/-- Settles O21: the stages and the checks of a trip's end, and what no move of the event's end takes back. -/
theorem tripEnds : Obligations.TripEnds := by
  intro s c i takes
  refine ⟨fun h role due => ?_, fun idle => ?_⟩
  · obtain ⟨run, ending⟩ := exec_tripEnd takes h role due
    obtain ⟨w, ends, unselected⟩ := tripEnded_ends ending
    have only := tripEnded_only (.refl (requestStart (.car c) s)) c
    have record := requestStart_car (.inl role)
    have awaits : ((requestStart (.car c) s).car c).awaits = ((s.car c).pendExcl || (s.car c).pendUnavail) := by
      rw [record]; rfl
    have sameRole := requestStart_role (.inl role)
    generalize tripEnded c (requestStart (.car c) s) = t at run ends unselected only
    have told (p : Port) (n : Nat) : (setOutcome (.car c) .accepted t).hasNotice p n = t.hasNotice p n :=
      State.hasNotice_updPort _ (setOutcome_act .accepted) ..
    refine ⟨_, run, ?_, ends.quit.idle, ends.quit.unstacked, ends.quit.unheld, ends.gate, ends.quit.spared,
      fun pending => ends.pending ?_, fun noExcl noUnavail => ?_, fun phase clearance => ?_⟩
    · rw [← requestStart_answered]
      exact only.updPort (setOutcome_act .accepted) (.car c)
    · rw [awaits]
      simpa using pending
    · have none : ((requestStart (.car c) s).car c).awaits = false := by rw [awaits, noExcl, noUnavail]; rfl
      refine ⟨fun role at_ => ?_, fun role away phase => ?_, fun role away phase => ?_,
        fun role desel mode out => ?_⟩
      · exact ends.landed none (sameRole.trans role) (by rw [record]; exact at_)
      · exact ends.returned none (sameRole.trans role) (by rw [record]; exact away) phase
      · obtain ⟨recalled, powered, slot⟩ :=
          ends.stays none (sameRole.trans role) (by rw [record]; exact away) phase
        exact ⟨recalled, powered.trans (by rw [record]), slot.trans (by rw [record])⟩
      · obtain ⟨shelved, sameMode, sameList, desel, park⟩ := ends.deselected none (sameRole.trans role)
          (by rw [record]; exact desel)
        have away := unselected (by rw [shelved.1]; decide) (sameMode.trans mode) (by rw [sameList]; exact out)
        obtain ⟨parked, off, unserved⟩ := (ends.moves.shelved (tripEndChecks_unlisted ending ends.pause)
          (tripEndChecks_out ending ends.pause).1 shelved).resolve_right away
        have listed : s.configured c = true := hears_of_takes takes c rfl
        exact ⟨parked, off, desel, unserved, (told ..).trans (park listed)⟩
    · obtain ⟨cleared, kept⟩ := ends.cleared phase clearance
      refine ⟨fun last => ?_, kept⟩
      obtain ⟨clear, timer, notice⟩ := cleared last
      exact ⟨clear, timer, (told ..).trans notice⟩
  · have trip := requestStart_trip c s
    have lost (lost : s.role c = .lost) (on : s.plan.phase.generator = true) :
        (requestStart (.car c) s).role c = .lost := (requestStart_role (.inr on)).trans lost
    have noFail (idle : (s.trip c).state ≠ .starting ∨ s.role c = .lost ∧ s.plan.phase.generator = true) :
        startFailed c (requestStart (.car c) s) = requestStart (.car c) s := by
      refine if_neg fun due => ?_
      rcases idle with other | off
      · exact other (by rw [← trip]; exact due.2)
      · exact due.1 (lost off.1 off.2)
    have noStop (idle : (s.trip c).state.moving = false ∨ s.role c = .lost ∧ s.plan.phase.generator = true) :
        carStopped c (requestStart (.car c) s) = requestStart (.car c) s := by
      refine if_neg fun due => ?_
      rcases idle with other | off
      · rw [trip, other] at due; cases due.2
      · exact due.1 (lost off.1 off.2)
    have fails (idle : (s.trip c).state ≠ .starting ∨ s.role c = .lost ∧ s.plan.phase.generator = true) :
        exec (.startFail c) s = .next (carAnswered c .accepted s) := by
      rw [exec_startFail takes, noFail idle, requestStart_answered]
    have stops (idle : (s.trip c).state.moving = false ∨ s.role c = .lost ∧ s.plan.phase.generator = true) :
        exec (.stopped c) s = .next (carAnswered c .accepted s) := by
      rw [exec_stopped takes, noStop idle, requestStart_answered]
    rcases idle with ⟨rfl, other⟩ | ⟨rfl, other⟩ | ⟨rfl | rfl, off⟩
    · exact fails (.inl other)
    · exact stops (.inl other)
    · exact fails (.inr off)
    · exact stops (.inr off)

end Sys2Proof.Machine
end

section
/-!
PROOFS. Acts that start no trip: whatever an owner does before its event closes, a trip that is STARTING after it was
STARTING before it (R47 to R63, R70 to R76, R85 to R94, R98 to R117). The grant alone starts trips (R68).
-/

namespace Sys2Proof.Machine

/-- No trip is STARTING in `t` that was not in `s`. -/
structure NoStart (s t : State) : Prop where
  was : ∀ c, (t.trip c).state = .starting → (s.trip c).state = .starting

namespace NoStart

variable {s t u : State} {c : CarIx}

theorem refl (s : State) : NoStart s s := ⟨fun _ => id⟩

theorem trans (h : NoStart s t) (k : NoStart t u) : NoStart s u := ⟨fun c starts => h.was c (k.was c starts)⟩

theorem of_state (same : ∀ c, (t.trip c).state = (s.trip c).state) : NoStart s t :=
  ⟨fun c starts => (same c).symm.trans starts⟩

theorem of_car (same : ∀ c, t.car c = s.car c) : NoStart s t :=
  of_state fun c => congrArg (fun r : CarRecord => r.trip.state) (same c)

theorem of_cars (same : t.cars = s.cars) : NoStart s t := of_car fun c => by simp only [State.car, same]

/-- In a quiet phase no trip is under way. -/
theorem of_quiet (h : t.TripsAgree) (quiet : t.plan.phase.quiet = true) : NoStart s t := .mk fun c starts => by
  have idle : (t.trip c).state = .none := ((h.cars c).idle quiet).1
  rw [idle] at starts
  cases starts

/-! ## Changes of one record -/

theorem updCar (h : NoStart s t) {f : CarRecord → CarRecord}
    (own : (f (t.car c)).trip.state = .starting → (t.trip c).state = .starting) : NoStart s (t.updCar c f) :=
  h.trans <| .mk fun d starts => by
    by_cases same : d = c
    · rw [State.trip, same, State.updCar_car_same] at starts
      rw [same]; exact own starts
    · rwa [State.trip, State.updCar_car_ne _ _ same] at starts

/-- A change that leaves the trip's state. -/
theorem edit (h : NoStart s t) {f : CarRecord → CarRecord} (same : ∀ r, (f r).trip.state = r.trip.state) :
    NoStart s (t.updCar c f) := h.updCar fun starts => (same _).symm.trans starts

theorem updTrip (h : NoStart s t) {f : Trip → Trip} (never : ∀ x, (f x).state ≠ .starting) :
    NoStart s (t.updTrip c f) := h.updCar fun starts => absurd starts (never _)

theorem editAll (h : NoStart s t) {f : CarIx → CarRecord → CarRecord}
    (own : ∀ c r, (f c r).trip.state = .starting → r.trip.state = .starting) : NoStart s (t.updAllCars f) :=
  h.trans <| .mk fun c starts => by
    rw [State.trip, State.updAllCars_car] at starts
    exact own c _ starts

theorem foldl {α : Type} (h : NoStart s t) {f : State → α → State}
    (each : ∀ u a, NoStart s u → NoStart s (f u a)) (l : List α) : NoStart s (l.foldl f t) :=
  List.foldlRecOn (motive := NoStart s) l f h fun u hu a _ => each u a hu

/-! ## Notices, the queue, the sequencer -/

theorem cars (h : NoStart s t) (same : u.cars = t.cars) : NoStart s u := h.trans (of_cars same)

theorem noticeCar (h : NoStart s t) (d : CarIx) (k : CarNotice) : NoStart s (t.noticeCar d k) :=
  h.trans (of_car fun c => t.noticeCar_car d c k)

theorem removeEntry (h : NoStart s t) : NoStart s (removeEntry c t) :=
  h.trans (of_car fun _ => removeEntry_car ..)

theorem dropEntry (h : NoStart s t) (c : CarIx) (r : DropReason) : NoStart s (dropEntry c r t) :=
  h.trans <| .mk fun d starts => by
    rw [dropEntry_trip] at starts
    split at starts
    · cases starts
    · exact starts

theorem leavePlan (h : NoStart s t) : NoStart s (leavePlan c t) :=
  (h.edit (c := c) (f := fun r => { r with recallTimer := none, slotStart := none }) fun _ => rfl).cars rfl

theorem park (h : NoStart s t) : NoStart s (park c t) :=
  leavePlan (edit h (f := fun r => { r with powered := false, role := .parked }) fun _ => rfl)

theorem joinPlan (h : NoStart s t) : NoStart s (joinPlan c t) := by
  unfold Machine.joinPlan
  split
  · exact h.park
  · exact h.cars rfl

theorem runCalls (h : NoStart s t) : NoStart s (runCalls t) :=
  h.trans (of_state fun c => congrArg Prod.fst ((callHeads_kept _ t).fate c))

theorem handBack (h : NoStart s t) : NoStart s (handBack c t) := by
  unfold Machine.handBack
  split
  · exact h.joinPlan.runCalls
  · exact h

theorem makeUnavailable (h : NoStart s t) : NoStart s (makeUnavailable c t) := by
  rw [makeUnavailable_eq]
  exact leavePlan (edit h fun _ => rfl)

theorem withdrawCar (h : NoStart s t) : NoStart s (withdrawCar c t) := (h.dropEntry c .role).makeUnavailable

theorem deselect (h : NoStart s t) : NoStart s (deselect c t) := by
  have out : NoStart s ((Machine.dropEntry c .role t).updCar c fun r =>
      { r with powered := false, role := .parked, pendDesel := false }) := edit (h.dropEntry c .role) fun _ => rfl
  rw [deselect_eq]
  exact out.leavePlan.noticeCar c .park

theorem deselectionCheck (h : NoStart s t) : NoStart s (deselectionCheck c t) := by
  unfold Machine.deselectionCheck
  split
  · exact h.deselect
  · exact h

theorem parkingCheck (h : NoStart s t) : NoStart s (parkingCheck c t) := by
  unfold Machine.parkingCheck
  split
  · split
    · split
      · exact h.park
      · exact h
    · split
      · exact h.park
      · exact h
    · split
      · exact h.park
      · exact leavePlan (edit h fun _ => rfl)
    · exact h
  · exact h

theorem clearanceCheck (h : NoStart s t) : NoStart s (clearanceCheck t) :=
  h.trans (of_car fun _ => clearanceCheck_car ..)

theorem leaveOut (h : NoStart s t) : NoStart s (leaveOut t c) := by
  unfold Machine.leaveOut
  split
  · exact h
  · split
    · split
      · exact h.deselect
      · exact edit h fun _ => rfl
    · split
      · exact edit h fun _ => rfl
      · exact h

/-! ## The trip's requests, the gate's windows and the trip's end -/

theorem refuseTrip (h : NoStart s t) (r : RefuseReason) : NoStart s (refuseTrip c r t).1 :=
  (h.edit (c := c) (f := fun x => { x with trip := { x.trip with verdict := .refused r } }) fun _ => rfl).noticeCar c
    .refused

theorem computeTrip (h : NoStart s t) (dir load : Byte) : NoStart s (computeTrip c dir load t) := by
  unfold Machine.computeTrip
  exact edit h fun _ => rfl

theorem admitEntry (h : NoStart s t) : NoStart s (admitEntry c t) := by
  unfold Machine.admitEntry
  extract_lets a b
  have waits : NoStart s a := updTrip h fun _ starts => by cases starts
  exact (waits.trans (of_cars (setEntries_cars _ a))).cars rfl

theorem freshTrip (h : NoStart s t) (dir load : Byte) : NoStart s (freshTrip c dir load t).1 := by
  have computed := h.computeTrip (c := c) dir load
  unfold Machine.freshTrip
  dsimp only
  split
  · exact computed.refuseTrip _
  · exact computed.admitEntry

theorem updateTrip (h : NoStart s t) (dir load : Byte) : NoStart s (updateTrip c dir load t).1 := by
  have computed := h.computeTrip (c := c) dir load
  unfold Machine.updateTrip
  dsimp only
  split
  · exact (updTrip computed.removeEntry fun _ starts => by cases starts).refuseTrip _
  · exact computed

theorem takeTrip (h : NoStart s t) (dir load : Byte) : NoStart s (takeTrip c dir load t).1 := by
  have screened : NoStart s (
      if t.role c ≠ .recall ∧ t.role c ≠ .service then Machine.refuseTrip c .notPermitted t
      else
        match (t.trip c).state with
        | .starting | .running => Machine.refuseTrip c .busy t
        | .waiting => Machine.updateTrip c dir load t
        | .none => Machine.freshTrip c dir load t).1 := by
    split
    · exact h.refuseTrip _
    · split
      · exact h.refuseTrip _
      · exact h.refuseTrip _
      · exact h.updateTrip dir load
      · exact h.freshTrip dir load
  unfold Machine.takeTrip
  split
  · exact h
  · exact h
  · exact h.refuseTrip _
  · exact h.refuseTrip _
  all_goals exact screened

theorem withdrawTrip (h : NoStart s t) : NoStart s (withdrawTrip c t) := by
  unfold Machine.withdrawTrip
  split
  · exact updTrip h.removeEntry fun _ starts => by cases starts
  · exact h

theorem endWindowOf (h : NoStart s t) : NoStart s (endWindowOf c t) := by
  rw [endWindowOf_eq]; exact h.cars rfl

theorem atSpeed (h : NoStart s t) : NoStart s (atSpeed c t) := by
  unfold Machine.atSpeed
  split
  · exact endWindowOf (updTrip h fun _ starts => by cases starts)
  · exact h

theorem endTrip (h : NoStart s t) : NoStart s (endTrip c t) := h.trans <| .mk fun d starts => by
  rw [State.trip, endTrip_car] at starts
  split at starts
  · cases starts
  · exact starts

theorem startWindowExpires (h : NoStart s t) : NoStart s (startWindowExpires t) := by
  unfold Machine.startWindowExpires
  split
  · rename_i c _
    exact (edit (c := c) h (f := fun r => { r with trip := { r.trip with startOverdue := true } })
      fun _ => rfl).cars rfl
  · exact h

theorem endPanelHold (h : NoStart s t) : NoStart s (endPanelHold t) := by
  rw [endPanelHold_eq]; exact h.cars rfl

theorem takeClaim (h : NoStart s t) (u : Byte) : NoStart s (takeClaim u t).1 := by
  refine h.cars ?_
  unfold Machine.takeClaim
  repeat' split
  all_goals rfl

theorem releaseClaim (h : NoStart s t) : NoStart s (releaseClaim t).1 := by
  unfold Machine.releaseClaim
  split
  · exact h.endPanelHold
  · split
    · exact h.cars rfl
    · exact h

theorem takeRecovered (h : NoStart s t) : NoStart s (takeRecovered t) := by
  unfold Machine.takeRecovered
  split
  · exact h.cars rfl
  · exact h

theorem takeReserve (h : NoStart s t) (entry : Byte) (amount : Nat) : NoStart s (takeReserve entry amount t).1 := by
  refine h.cars ?_
  unfold Machine.takeReserve
  repeat' split
  all_goals rfl

theorem tripEndStages (h : NoStart s t) : NoStart s (tripEndStages c t) := by
  have ended := h.endTrip (c := c)
  have applied : NoStart s (applyPending c (Machine.endTrip c t)) := by
    unfold applyPending
    split
    · exact makeUnavailable (ended.cars rfl)
    · exact ended
  exact applied.cars rfl

/-! ## The car's status, link, inclusion and release -/

theorem applyExclusion (h : NoStart s t) : NoStart s (applyExclusion c t) := by
  have marked : NoStart s (t.updCar c fun r => { r with pendExcl := true }) := edit h fun _ => rfl
  have charged : NoStart s (if (t.trip c).state.still then Machine.withdrawCar c t
      else t.updCar c fun r => { r with pendExcl := true }) := by
    split
    · exact h.withdrawCar
    · exact marked
  unfold Machine.applyExclusion
  split
  · exact h.withdrawCar
  · exact h.withdrawCar
  · exact charged
  · exact charged
  · split
    · exact marked
    · exact h
  all_goals exact h

theorem notAvailable (h : NoStart s t) : NoStart s (notAvailable c t) := by
  have charged : NoStart s (if (t.trip c).state.still then Machine.withdrawCar c t
      else t.updCar c fun r => { r with pendUnavail := true }) := by
    split
    · exact h.withdrawCar
    · exact edit h fun _ => rfl
  unfold Machine.notAvailable
  split
  · exact h.withdrawCar
  · exact h.withdrawCar
  · exact charged
  · exact charged
  all_goals exact h

theorem endFrozen (h : NoStart s t) (role : Role) : NoStart s (endFrozen c role t) := h.trans <| .mk fun d starts => by
  rw [State.trip, endFrozen_car] at starts
  split at starts
  · cases starts
  · exact starts

theorem returnStill (h : NoStart s t) : NoStart s (returnStill c t) := by
  have freed := h.endFrozen (c := c) (t.car c).returnRole
  unfold Machine.returnStill
  dsimp only
  split
  · exact freed.handBack
  · exact freed

theorem heldExclusion (h : NoStart s t) : NoStart s (heldExclusion c t) := by
  unfold Machine.heldExclusion
  split
  · exact applyExclusion (edit h fun _ => rfl)
  · exact h

theorem returnMoving (h : NoStart s t) : NoStart s (returnMoving c t) := by
  unfold Machine.returnMoving
  extract_lets role a b
  have restored : NoStart s a := edit h fun _ => rfl
  have back : NoStart s b := by
    unfold b
    split
    · exact restored.handBack
    · exact restored
  exact back.heldExclusion.deselectionCheck

theorem resolveReturn (h : NoStart s t) : NoStart s (resolveReturn c t) := by
  unfold Machine.resolveReturn
  split
  · split
    · exact h.returnStill
    · exact h.returnMoving
  · exact h

theorem nowAvailable (h : NoStart s t) : NoStart s (nowAvailable c t) := by
  unfold Machine.nowAvailable
  extract_lets a
  have cleared : NoStart s a := edit h fun _ => rfl
  split
  · exact handBack (edit cleared fun _ => rfl)
  · exact cleared

theorem takeState (h : NoStart s t) (u : Byte) : NoStart s (takeState c u t) := by
  have recorded : NoStart s (recordStatus c u t) := edit h fun _ => rfl
  have resolved := recorded.resolveReturn (c := c)
  have ruled : NoStart s (availabilityRules c (Machine.resolveReturn c (recordStatus c u t))) := by
    unfold availabilityRules
    split
    · exact resolved.nowAvailable
    · exact resolved.notAvailable
  exact (ruled.trans (of_car fun _ => motionCheck_car ..)).parkingCheck

theorem freezeCar (h : NoStart s t) : NoStart s (freezeCar c t) := by
  unfold Machine.freezeCar
  extract_lets a _ b
  have dropped : NoStart s b := (h.dropEntry c .link).cars rfl
  have lost : NoStart s (if b.role c = .lost then b
      else b.updCar c fun r => { r with preLoss := some r.role, role := .lost }) := by
    split
    · exact dropped
    · exact edit dropped fun _ => rfl
  exact lost.cars rfl

theorem loseCarLink (h : NoStart s t) : NoStart s (loseCarLink c t) := by
  unfold Machine.loseCarLink
  extract_lets a
  have silent : NoStart s a := edit h fun _ => rfl
  split
  · exact silent.freezeCar
  · exact silent

theorem excludeCar (h : NoStart s t) : NoStart s (excludeCar c t) := by
  unfold Machine.excludeCar
  split
  · have out : NoStart s (t.updCar c fun r => { r with included := false }) := edit h fun _ => rfl
    exact (out.noticeCar c .excluded).applyExclusion
  · exact h

theorem admitCar (h : NoStart s t) : NoStart s (admitCar c t) := by
  unfold Machine.admitCar
  extract_lets a
  have admitted : NoStart s a := edit h fun _ => rfl
  split
  · exact handBack (edit admitted fun _ => rfl)
  · split
    · exact admitted.handBack
    · exact admitted

theorem takeInclude (h : NoStart s t) (ix code : Byte) : NoStart s (takeInclude ix code t).1 := by
  unfold Machine.takeInclude
  split
  · exact h
  · split
    · exact h
    · split
      · exact h.excludeCar
      · exact h.admitCar

theorem takeRelease (h : NoStart s t) (ix : Byte) : NoStart s (takeRelease ix t).1 := by
  unfold Machine.takeRelease
  split
  · exact h
  · split
    · exact h
    · split
      · exact h.endFrozen _
      · rename_i c _ _ _
        exact h.edit (c := c) (f := fun r => { r with role := .free, preLoss := none }) fun _ => rfl

theorem takeSelect (h : NoStart s t) (args : List Byte) : NoStart s (takeSelect args t) := by
  unfold Machine.takeSelect
  split
  · exact (editAll h (f := fun _ r => { r with pendDesel := false }) fun _ _ => id).cars rfl
  · extract_lets l a _ b
    have spared : NoStart s a := editAll h fun c r starts => by
      split at starts
      · exact starts
      · exact starts
    have chosen : NoStart s b := spared.cars rfl
    split
    · exact chosen.foldl (fun _ _ hu => hu.leaveOut) allCars
    · exact chosen

theorem recallExpires (h : NoStart s t) : NoStart s (recallExpires c t) := by
  unfold Machine.recallExpires
  extract_lets a
  have expired : NoStart s a := (edit (c := c) h (f := fun r => { r with recallTimer := none }) fun _ => rfl).cars rfl
  split
  · exact edit expired fun _ => rfl
  · split
    · exact leavePlan (edit expired fun _ => rfl)
    · exact leavePlan (edit (expired.dropEntry c .role) fun _ => rfl)

/-! ## The phases and the store -/

theorem enterPhase (h : NoStart s t) (p : Phase) : NoStart s (enterPhase p t) :=
  h.trans (of_car fun _ => enterPhase_car ..)

theorem dropAllEntries (h : NoStart s t) : NoStart s (dropAllEntries t) := by
  unfold Machine.dropAllEntries
  exact (h.foldl (fun _ d hu => hu.dropEntry d .phase) _).trans (of_cars (setEntries_cars _ _))

theorem giveRoles (h : NoStart s t) : NoStart s (giveRoles t) := editAll h fun c r starts => by
  split at starts
  · rwa [(State.TripsAgree.giveRole_keeps r).1] at starts
  · exact starts

theorem enterOutage (h : NoStart s t) : NoStart s (enterOutage t) := by
  have entered := h.enterPhase .outage
  unfold Machine.enterOutage
  generalize Machine.enterPhase .outage t = v at entered
  have shut : NoStart s (closeGate v) := entered.cars rfl
  exact shut.giveRoles.editAll (f := fun _ r => { r with recallFailed := false }) fun _ _ => id

theorem enterReturnFromStart (h : NoStart s t) : NoStart s (enterReturnFromStart t) := by
  have entered := (h.enterPhase .returning).giveRoles
  unfold Machine.enterReturnFromStart
  generalize Machine.giveRoles (Machine.enterPhase .returning t) = v at entered
  exact entered.cars rfl

theorem startSettle (h : NoStart s t) : NoStart s (startSettle t) := by
  unfold Machine.startSettle
  split
  · exact h
  · exact h.cars rfl

theorem enterReturn (h : NoStart s t) : NoStart s (enterReturn t) := by
  rw [enterReturn_eq]
  refine clearanceCheck (trans (h.enterPhase .returning).dropAllEntries (of_state fun c => ?_))
  rw [State.trip, returnBegun_car, (State.TripsAgree.settleForReturn_keeps _).1]; rfl

theorem enterMains (s t : State) : NoStart s (enterMains t) := .mk fun c starts => by
  rw [State.trip, enterMains_eq, generatorLeft_car] at starts
  cases starts

theorem generatorLoss (s t : State) : NoStart s (generatorLoss t) := .mk fun c starts => by
  rw [State.trip, generatorLoss_eq, generatorLeft_car, (State.TripsAgree.loseGenerator_idle _).1] at starts
  cases starts

theorem settleExpires (h : NoStart s t) : NoStart s (settleExpires t) := by
  have stopped : NoStart s (stopSettle t) := h.cars rfl
  have entered := stopped.enterPhase .recall
  unfold Machine.settleExpires buildList
  generalize Machine.enterPhase .recall (stopSettle t) = v at entered
  have opened : NoStart s (openGate v) := entered.cars rfl
  have emptied : NoStart s { openGate v with plan := { (openGate v).plan with recallList := [] } } := opened.cars rfl
  refine emptied.foldl (fun u c hu => ?_) allCars
  split
  · exact hu.joinPlan
  · exact hu

theorem withdrawReturn (h : NoStart s t) : NoStart s (withdrawReturn t) := by
  have withdrawn : NoStart s { t with plan := { t.plan with clearance := .notClear, returnTimer := none } } :=
    h.cars rfl
  unfold Machine.withdrawReturn
  dsimp only
  refine foldl (withdrawn.enterPhase _) (fun u c hu => ?_) allCars
  split
  · exact hu.joinPlan
  · exact hu

theorem reportSupply (h : NoStart s t) (r : SupplyState) : NoStart s (reportSupply r t) := by
  have outage := h.enterOutage
  unfold Machine.reportSupply
  cases t.plan.phase with
  | start =>
    cases r with
    | mains => exact h.enterPhase _
    | genReady => exact outage.startSettle
    | retransfer => exact h.enterReturnFromStart
    | _ => exact outage
  | mains =>
    cases r with
    | genReady => exact outage.startSettle
    | genStarting => exact outage
    | genLost => exact outage
    | _ => exact h
  | outage =>
    cases r with
    | mains => exact enterMains s t
    | genReady => exact h.startSettle
    | _ => exact h.cars rfl
  | returning =>
    cases r with
    | mains => exact enterMains s t
    | genReady => exact h.withdrawReturn
    | retransfer => exact h
    | _ => exact generatorLoss s t
  | _ =>
    cases r with
    | mains => exact enterMains s t
    | genReady => exact h
    | retransfer => exact h.enterReturn
    | _ => exact generatorLoss s t

theorem activate (h : NoStart s t) (i : Image) : NoStart s (activate i t) := h.trans <| .mk fun c starts => by
  rw [State.trip, activate_car, recountCar] at starts
  split at starts
  · exact starts
  · cases starts

theorem endStoreWrite (h : NoStart s t) : NoStart s (endStoreWrite t) := by
  unfold Machine.endStoreWrite
  extract_lets _ a
  have ended : NoStart s a := h.cars rfl
  split
  · exact ended
  · exact ended.activate _

theorem activateOnMains (h : NoStart s t) : NoStart s (activateOnMains t) := by
  unfold Machine.activateOnMains
  split
  · exact h.endStoreWrite
  · exact h

theorem programmingEnds (h : NoStart s t) : NoStart s (programmingEnds t) := by
  unfold Machine.programmingEnds
  split
  · extract_lets _ a
    have stored : NoStart s a := h.cars rfl
    split
    · exact stored.endStoreWrite
    · exact stored
  · exact h

theorem takeSupply (h : NoStart s t) (u : Byte) : NoStart s (takeSupply u t).1 := by
  unfold Machine.takeSupply
  split
  · exact h
  · exact (h.reportSupply _).activateOnMains

theorem takeSiteWrite (h : NoStart s t) (i : Image) : NoStart s (takeSiteWrite i t).1 := by
  refine h.cars ?_
  unfold Machine.takeSiteWrite
  repeat' split
  all_goals rfl

end NoStart

end Sys2Proof.Machine
end

section
/-!
PROOFS. A trip just granted keeps what its grant was made on while cars are only taken off the generator, and a further
selection or grant keeps it too; so it holds where an event closes (R31, R34, R67, R68).
-/

namespace Sys2Proof.Machine

/-! ## What is granted -/

/-- The phases that a command which granted a trip may end in (R67, R118). -/
def Phase.Grants (late : Prop) (p : Phase) : Prop := p = .recall ∨ p = .service ∨ late ∧ p = .returning

/-- What R67 promises of a trip that is started: the phase and the link that allow it, the limits it fits in, and the
gate it holds. -/
structure State.Granted (late : Prop) (t : State) (c : CarIx) : Prop where
  phase : t.plan.phase.Grants late
  link : t.supplyLink.link = .up
  headroom : 0 ≤ t.headroom
  feeders : t.singleCar = true ∨ ∀ f, t.feederLoad f ≤ t.rating f
  step : t.account.stepLimit = 0 ∨ (t.trip c).s ≤ t.account.stepLimit
  gate : t.gate.state = .carStart
  holder : t.gate.holder = .car c
  powered : (t.car c).powered = true

/-- Every trip started since `s` has what R67 promises. -/
structure GrantsWell (late : Prop) (s t : State) : Prop where
  granted : ∀ c, (s.trip c).state ≠ .starting → (t.trip c).state = .starting → t.Granted late c

variable {late : Prop} {s s0 t u x : State} {c : CarIx}

theorem NoStart.grantsWell (h : NoStart s t) : GrantsWell late s t where
  granted c was starts := absurd (h.was c starts) was

theorem GrantsWell.from (h : GrantsWell late t u) (k : NoStart s t) : GrantsWell late s u where
  granted c was := h.granted c fun starts => was (k.was c starts)

theorem GrantsWell.mono {late' : Prop} (h : GrantsWell late s t) (weaker : late → late') : GrantsWell late' s t where
  granted c was starts :=
    let g := h.granted c was starts
    { g with phase := g.phase.imp_right (.imp_right fun both => ⟨weaker both.1, both.2⟩) }

/-! ## Cars taken off the generator -/

/-- A record that is charged no more than before: its trip ends or goes on, and it is unpowered only with no trip
STARTING. -/
structure CarRecord.Lightened (r q : CarRecord) : Prop where
  standby : q.profile.a = r.profile.a
  figures : q.trip.figures = r.trip.figures
  state : q.trip.state = r.trip.state ∨ q.trip.state = .none
  power : q.powered = r.powered ∨ q.powered = false ∧ q.trip.state ≠ .starting

namespace CarRecord.Lightened

variable {p q r : CarRecord}

theorem refl (r : CarRecord) : r.Lightened r := ⟨rfl, rfl, .inl rfl, .inl rfl⟩

theorem charge_le (h : r.Lightened q) : q.charge ≤ r.charge := by
  have standing : q.standing ≤ r.standing := by
    unfold CarRecord.standing
    rw [h.standby]
    rcases h.power with same | ⟨off, -⟩
    · rw [same]
    · rw [off]; exact Nat.zero_le _
  have trip : q.trip.charge ≤ r.trip.charge := by
    have kind : q.trip.kind = r.trip.kind := congrArg (fun f => f.demand.kind) h.figures
    have s : q.trip.s = r.trip.s := congrArg (fun f => f.demand.s) h.figures
    have n : q.trip.n = r.trip.n := congrArg (fun f => f.demand.n) h.figures
    unfold Trip.charge
    rcases h.state with same | ended
    · rw [same, kind, s, n]
    · rw [ended]; exact Nat.zero_le _
  exact Nat.add_le_add standing trip

end CarRecord.Lightened

/-- What the limits are measured by stays, the gate stays with its holder, and cars are only taken off the
generator. -/
structure Eased (s t : State) : Prop where
  active : t.store.active = s.store.active
  site : t.store.site = s.store.site
  link : t.supplyLink.link = s.supplyLink.link
  offer : t.account.offer = s.account.offer
  stepLimit : t.account.stepLimit = s.account.stepLimit
  reserves : t.account.reserves = s.account.reserves
  gate : t.gate.state = s.gate.state ∧ t.gate.holder = s.gate.holder
  cars : ∀ c, (s.car c).Lightened (t.car c)

namespace Eased

theorem refl (s : State) : Eased s s := ⟨rfl, rfl, rfl, rfl, rfl, rfl, ⟨rfl, rfl⟩, fun _ => .refl _⟩

/-- Decisions of the part that leave the gate and lighten each record. -/
theorem of_only (only : OnlyDecisions s t) (gate : t.gate = s.gate)
    (state : ∀ c, (t.trip c).state = (s.trip c).state ∨ (t.trip c).state = .none)
    (power : ∀ c, (t.car c).powered = (s.car c).powered ∨
      (t.car c).powered = false ∧ (t.trip c).state ≠ .starting) : Eased s t where
  active := by rw [only.store]
  site := by rw [only.store]
  link := by rw [only.supplyLink]
  offer := congrArg (fun l => l.1) only.limits
  stepLimit := congrArg (fun l => l.2.1) only.limits
  reserves := congrArg (fun l => l.2.2.2) only.limits
  gate := by rw [gate]; exact ⟨rfl, rfl⟩
  cars c := ⟨congrArg (fun i => i.profile.a) (only.cars c), only.figures c, state c, power c⟩

theorem noStart (h : Eased s t) : NoStart s t where
  was c starts := by
    rcases (h.cars c).state with same | ended
    · exact same.symm.trans starts
    · exact absurd (ended.symm.trans starts) (by decide)

theorem headroom (h : Eased s t) : s.headroom ≤ t.headroom := by
  have load : t.lc ≤ s.lc := sumCars_mono fun c => (h.cars c).charge_le
  have reserves : t.rs = s.rs := by rw [State.rs_eq, State.rs_eq, h.reserves]
  unfold State.headroom
  rw [h.offer, reserves]
  omega

theorem feeders (h : Eased s t) (within : s.singleCar = true ∨ ∀ f, s.feederLoad f ≤ s.rating f) :
    t.singleCar = true ∨ ∀ f, t.feederLoad f ≤ t.rating f := by
  have single : t.singleCar = s.singleCar := by rw [State.singleCar, h.site]; rfl
  have feeder (c : CarIx) : t.feeder c = s.feeder c := by rw [State.feeder, h.active]; rfl
  have rating (f : FeederIx) : t.rating f = s.rating f := by rw [State.rating, h.active]; rfl
  cases table : s.singleCar with
  | true => exact .inl (single.trans table)
  | false =>
    refine .inr fun f => ?_
    have before := within.resolve_left (by simp [table]) f
    have load : t.feederLoad f ≤ s.feederLoad f := by
      rw [State.feederLoad_of_table table, State.feederLoad_of_table (single.trans table)]
      refine sumCars_mono fun c => ?_
      rw [feeder]
      split
      · exact (h.cars c).charge_le
      · exact Nat.le_refl 0
    rw [rating]
    exact load.trans before

end Eased

/-- Cars are taken off the generator: what was granted is granted still, where the phase still grants. -/
theorem GrantsWell.eased {late' : Prop} (h : GrantsWell late s t) (k : Eased t u)
    (phase : t.plan.phase.Grants late → u.plan.phase.Grants late') : GrantsWell late' s u where
  granted c was starts := by
    have started := k.noStart.was c starts
    have g := h.granted c was started
    have load : (u.trip c).s = (t.trip c).s := congrArg (fun f => f.demand.s) (k.cars c).figures
    have power : (u.car c).powered = (t.car c).powered :=
      (k.cars c).power.resolve_right fun off => off.2 starts
    exact
      { phase := phase g.phase
        link := k.link.trans g.link
        headroom := g.headroom.trans k.headroom
        feeders := k.feeders g.feeders
        step := by rw [k.stepLimit, load]; exact g.step
        gate := k.gate.1.trans g.gate
        holder := k.gate.2.trans g.holder
        powered := power.trans g.powered }

/-! ## The closing of an event -/

theorem PlanKept.eased (h : PlanKept s t) (only : OnlyDecisions s t) (trips : s.TripsAgree) : Eased s t := by
  have state (c : CarIx) : (t.trip c).state = (s.trip c).state := congrArg Prod.fst (h.fate c)
  refine .of_only only h.gate (fun c => .inl (state c)) fun c => ?_
  rcases h.record c with same | ⟨⟨e, on, own⟩, -, power⟩
  · rw [same]; exact .inl rfl
  · refine power.imp_right fun off => ⟨off, ?_⟩
    have held : s.role c = .held := own ▸ trips.listed e on
    rw [state, (trips.rests (c := c) (by rw [held]; decide)).1]
    decide

theorem evaluate_eased (s : State) : Eased s (evaluate s) := by
  obtain ⟨-, -, -, gate⟩ := evaluate_eq s
  refine .of_only (evaluate_moves s).only gate (fun c => .inl ?_) fun c => .inl ?_
  · rw [State.trip, evaluate_car]; rfl
  · rw [evaluate_car]

theorem Eased.trans (h : Eased s t) (k : Eased t u) : Eased s u where
  active := k.active.trans h.active
  site := k.site.trans h.site
  link := k.link.trans h.link
  offer := k.offer.trans h.offer
  stepLimit := k.stepLimit.trans h.stepLimit
  reserves := k.reserves.trans h.reserves
  gate := ⟨k.gate.1.trans h.gate.1, k.gate.2.trans h.gate.2⟩
  cars c := by
    have first := h.cars c
    have second := k.cars c
    refine ⟨second.standby.trans first.standby, second.figures.trans first.figures, ?_, ?_⟩
    · rcases second.state with same | ended
      · rw [same]; exact first.state
      · exact .inr ended
    · rcases second.power with same | off
      · rcases second.state with going | ended
        · rw [same, going]; exact first.power
        · refine first.power.imp same.trans fun off => ⟨same.trans off.1, ?_⟩
          rw [ended]; decide
      · exact .inr off

theorem dropEntry_eased (c : CarIx) (r : DropReason) (s : State) : Eased s (dropEntry c r s) := by
  refine .of_only (dropEntry_only (.refl s) c r) (dropEntry_gate ..) (fun d => ?_) fun d => .inl ?_
  · rw [dropEntry_trip]
    split
    · exact .inr rfl
    · exact .inl rfl
  · rw [dropEntry_car]
    split
    · rename_i same; rw [same.1]
    · rfl

theorem recheck_eased (s : State) : Eased s (recheck s) :=
  List.foldlRecOn (motive := Eased s) s.queue.entries _ (.refl s) fun _ h _ _ => by
    split
    · exact h.trans (dropEntry_eased ..)
    · exact h

theorem Choice.eased (m : Choice s t) : Eased s t := by
  have ordered (c : CarIx) (k : VictimKind) (n : Nat) : Eased s (orderToLand c k n s) := by
    refine .of_only (orderToLand_only (.refl s) c k n) (by simp [orderToLand]) (fun d => .inl ?_) fun d => .inl ?_
    · rw [State.trip, orderToLand_car]
      split
      · rename_i same; rw [same]
      · rfl
    · rw [orderToLand_car]
      split
      · rename_i same; rw [same]
      · rfl
  cases m with
  | park c f victim =>
    have still := State.TripsAgree.idleVictim_still victim
    have gate : (deselect c s).gate = s.gate := by
      simp only [deselect, State.noticeCar_gate, State.updCar_gate, Machine.park, leavePlan, dropEntry_gate]
    refine .of_only (deselect_only (.refl s) c) gate (fun d => ?_) fun d => ?_
    · rw [deselect_trip_eq]
      split
      · exact .inr rfl
      · exact .inl rfl
    · rw [deselect_car]
      split
      · rename_i same
        refine .inr ⟨rfl, fun starts => ?_⟩
        rw [same] at starts
        have moving := (NoStart.refl s).deselect.was c starts
        rw [moving] at still; cases still
      · exact .inl rfl
  | land c => exact ordered ..
  | landReverse c => exact ordered ..

theorem Choices.eased (m : Choices s t) : Eased s t := by
  induction m with
  | refl => exact .refl s
  | tail _ last ih => exact ih.trans last.eased

/-- What an event does before its selection and grant takes cars off the generator at most. -/
theorem shedded_eased (k : Cause) (s0 : State) (trips : x.TripsAgree) : Eased x (shedded k s0 x) := by
  have evaluated : Eased x (evaluated s0 x) :=
    ((advancePlan_kept s0 x).eased (advancePlan_moves s0 x).only trips).trans (evaluate_eased _)
  have checked : Eased (Machine.evaluated s0 x) (recheckIfDue s0 (Machine.evaluated s0 x)) := by
    unfold recheckIfDue
    split
    · exact recheck_eased _
    · exact .refl _
  have agrees := (trips.moves (evaluated_moves s0 x)).moves (recheckIfDue_moves s0 _)
  refine (evaluated.trans checked).trans ?_
  unfold shedded shedIfDue
  split
  · rename_i due
    have passed := agrees.moves (shedPass_moves _ due.1).1
    exact ((Choices.eased (shedPass_choices _)).trans
      ((advancePlan_kept s0 _).eased (advancePlan_moves s0 _).only passed)).trans (evaluate_eased _)
  · exact .refl _

/-- A move of a closing event leaves the phase, or ends the recall (R110). -/
theorem Move.grants (m : Move s t) (phase : s.plan.phase.Grants late) : t.plan.phase.Grants late := by
  cases m with
  | call e rest => rw [callCar_phase]; exact phase
  | endRecall => rw [endRecall_plan]; exact .inr (.inl rfl)
  | drop d r => rw [dropEntry_plan]; exact phase
  | deselect d => rw [deselect_plan]; exact phase
  | land => rw [orderToLand_plan]; exact phase
  | landReverse => rw [orderToLand_plan]; exact phase
  | select d => rw [selectCar_plan]; exact phase
  | carGrant d => rw [carGrant_plan]; exact phase
  | _ => exact phase

theorem Moves.grants (m : Moves s t) (phase : s.plan.phase.Grants late) : t.plan.phase.Grants late :=
  Moves.keeps (P := fun u => u.plan.phase.Grants late) (fun _ _ kept k => k.grants kept) m phase

/-- A selection keeps what was granted: it is made within the limits and leaves the gate (R34). -/
theorem GrantsWell.select (h : GrantsWell late s t) (settled : t.Settled) (allowed : selectionAllowed t = true)
    (fits : t.selectionFits c = true) : GrantsWell late s (selectCar c t) where
  granted d was starts := by
    have kept := selectCar_only (.refl t) c
    have trip : (selectCar c t).trip d = t.trip d := selectCar_trip c d t
    rw [trip] at starts
    have g := h.granted d was starts
    have evaluates : t.plan.phase.evaluates = true := by
      simp only [selectionAllowed, Bool.and_eq_true, beq_iff_eq] at allowed
      rw [allowed.1.1]; rfl
    have none := settled.noCondition (selectionAllowed_none allowed)
    have within := selectCar_within (t.anyCondition_eq_false_iff.1 none evaluates) fits
    have gate : (selectCar c t).gate = t.gate := by simp [selectCar]
    exact
      { phase := by rw [selectCar_plan]; exact g.phase
        link := by rw [kept.supplyLink]; exact g.link
        headroom := within.headroom
        feeders := within.feeders
        step := by
          rw [show (selectCar c t).account.stepLimit = t.account.stepLimit from
            congrArg (fun l => l.2.1) kept.limits, trip]
          exact g.step
        gate := by rw [gate]; exact g.gate
        holder := by rw [gate]; exact g.holder
        powered := by
          rw [selectCar_car]
          split
          · rfl
          · exact g.powered }

/-- A grant has what R67 promises, and none was made before it in the event: the gate was OPEN. -/
theorem GrantsWell.carGrant (h : GrantsWell late s t) (settled : t.Settled) (opened : t.gate.state = .opened)
    (allowed : carGrantAllowed t = true) (fits : t.fitsNow c = true) : GrantsWell late s (carGrant c t) where
  granted d was starts := by
    obtain ⟨phase, none, link⟩ := (carGrantAllowed_iff t).1 allowed
    have kept := carGrant_only (.refl t) c
    have evaluates : t.plan.phase.evaluates = true := by rcases phase with e | e <;> rw [e] <;> rfl
    have within := carGrant_within (t.anyCondition_eq_false_iff.1 (settled.noCondition none) evaluates) fits
    have step := (t.stepOk_iff c).1 ((t.fitsNow_iff c).1 fits).2.2.1
    have gate : (Machine.carGrant c t).gate.state = .carStart ∧ (Machine.carGrant c t).gate.holder = .car c := by
      unfold Machine.carGrant
      simp
    have own : d = c := by
      by_contra other
      rw [carGrant_trip_ne t other] at starts
      exact absurd ((h.granted d was starts).gate.symm.trans opened) (by decide)
    subst own
    exact
      { phase := by rw [carGrant_plan]; exact phase.imp_right .inl
        link := by rw [kept.supplyLink]; exact link
        headroom := within.headroom
        feeders := within.feeders
        step := by
          rw [show (Machine.carGrant d t).account.stepLimit = t.account.stepLimit from
            congrArg (fun l => l.2.1) kept.limits, State.trip, carGrant_car, if_pos rfl]
          exact step
        gate := gate.1
        holder := gate.2
        powered := by rw [carGrant_car, if_pos rfl]; rfl }

theorem draw_eased (n : Nat) (s : State) : Eased s { s with freeIx := n } :=
  .of_only (Moves.one (.draw n)).only rfl (fun _ => .inl rfl) fun _ => .inl rfl

theorem GrantsWell.grantMove (h : GrantsWell late s t) (settled : t.Settled) (m : GrantMove t u) :
    GrantsWell late s u := by
  cases m with
  | select c allowed _ _ fits => exact h.select settled allowed fits
  | carGrant c opened allowed _ fits => exact h.carGrant settled opened allowed fits
  | panelGrant e opened =>
    exact ⟨fun c was starts => absurd ((h.granted c was starts).gate.symm.trans opened) (by decide)⟩
  | draw n => exact h.eased (draw_eased n t) id

theorem GrantsWell.grantMoves (h : GrantsWell late s t) (settled : t.Settled) (m : GrantMoves t u) :
    GrantsWell late s u := by
  induction m with
  | refl => exact h
  | tail earlier last ih => exact ih.grantMove (GrantMoves.settled earlier settled) last

/-- Closing an event keeps what was granted, and grants no other trip than R67 allows. -/
theorem GrantsWell.closeEvent (h : GrantsWell late s x) (ready : x.Ready) (trips : x.TripsAgree) (k : Cause)
    (s0 : State) : GrantsWell late s (closeEvent k s0 x) :=
  (h.eased (shedded_eased k s0 trips) (shedded_moves k s0 x).grants).grantMoves
    ((((ready.advancePlan s0).evaluate).recheckIfDue s0).shedIfDue k s0) (selectAndGrant_grantMoves k s0 _)

end Sys2Proof.Machine
end

section
/-!
PROOFS. The grants of one act: those of an event's closing, of a trip's end, and of the supply link's return before a
report acts (R67, R76, R118).
-/

namespace Sys2Proof.Machine

variable {late : Prop} {s s0 t u x : State} {c : CarIx} {p : Port}

/-! ## Acts that take cars off the generator -/

theorem GrantsWell.eitherOrder (h : GrantsWell late s t) (k : GrantsWell late s u) :
    GrantsWell late s (eitherOrder t u) := by
  obtain ⟨n, e | e⟩ := eitherOrder_cases t u <;> rw [e]
  · exact h.eased (draw_eased n t) id
  · exact k.eased (draw_eased n u) id

/-- The parking check unpowers a car whose trip is NONE, and leaves the gate. -/
theorem parkingCheck_eased (c : CarIx) (s : State) : Eased s (parkingCheck c s) := by
  by_cases due : s.role c = .recall ∧ (s.trip c).state = .none
  · have taken (f : CarRecord → CarRecord) (trip : ∀ r, (f r).trip = r.trip) (off : ∀ r, (f r).powered = false)
        (only : OnlyDecisions s (leavePlan c (s.updCar c f))) : Eased s (leavePlan c (s.updCar c f)) := by
      have own : (leavePlan c (s.updCar c f)).car c = (f (s.car c)).offPlan := by
        rw [leavePlan_car, if_pos rfl, State.updCar_car_same]; rfl
      have other {d : CarIx} (ne : d ≠ c) : (leavePlan c (s.updCar c f)).car d = s.car d := by
        rw [leavePlan_car, if_neg ne, State.updCar_car_ne _ _ ne]
      have idle : (leavePlan c (s.updCar c f)).trip c = s.trip c := by
        rw [State.trip, own]; exact trip _
      refine .of_only only rfl (fun d => .inl ?_) fun d => ?_
      · by_cases same : d = c
        · rw [same, idle]
        · rw [State.trip, other same]; rfl
      · by_cases same : d = c
        · rw [same, idle, own, due.2]; exact .inr ⟨off _, by decide⟩
        · rw [other same]; exact .inl rfl
    have parked : Eased s (Machine.park c s) :=
      taken (fun r => { r with powered := false, role := .parked }) (fun _ => rfl) (fun _ => rfl)
        (park_only (.refl s) c)
    have held : Eased s (leavePlan c (s.updCar c fun r => { r with powered := false, role := .held })) :=
      taken _ (fun _ => rfl) (fun _ => rfl)
        (leavePlan_only ((OnlyDecisions.refl s).thenUpdCar (fun _ => by rfl) fun _ => by rfl) c)
    rw [parkingCheck, if_pos due]
    split
    · split
      · exact parked
      · exact .refl s
    · split
      · exact parked
      · exact .refl s
    · split
      · exact parked
      · exact held
    · exact .refl s
  · rw [parkingCheck, if_neg due]; exact .refl s

theorem clearanceCheck_eased (s : State) : Eased s (clearanceCheck s) := by
  have gate : (clearanceCheck s).gate = s.gate := by
    unfold clearanceCheck
    split <;> rfl
  refine .of_only (clearanceCheck_only (.refl s)) gate (fun d => .inl ?_) fun d => .inl ?_
  · rw [State.trip, clearanceCheck_car]; rfl
  · rw [clearanceCheck_car]

theorem clearanceCheck_phase (s : State) : (clearanceCheck s).plan.phase = s.plan.phase := by
  unfold clearanceCheck
  split <;> rfl

theorem parkingCheck_phase (c : CarIx) (s : State) : (parkingCheck c s).plan.phase = s.plan.phase :=
  (parkingCheck_clearing c s).1

theorem dropAllEntries_eased (s : State) : Eased s (dropAllEntries s) := by
  have dropped : Eased s (s.queue.entries.foldl (fun t c => dropEntry c .phase t) s) :=
    List.foldlRecOn (motive := Eased s) _ _ (.refl s) fun _ h _ _ => h.trans (dropEntry_eased ..)
  unfold dropAllEntries
  generalize s.queue.entries.foldl (fun t c => dropEntry c .phase t) s = v at dropped
  refine dropped.trans (.of_only (setEntries_only (.refl v) []) (setEntries_gate [] v) (fun d => .inl ?_)
    fun d => .inl ?_)
  · rw [State.trip, setEntries_car]; rfl
  · rw [setEntries_car]

theorem settleForReturn_lightened (r : CarRecord) : r.Lightened (settleForReturn r) := by
  have off {q : CarRecord} (idle : r.trip.state = .none) (standby : q.profile = r.profile) (trip : q.trip = r.trip)
      (power : q.powered = false) : r.Lightened q :=
    ⟨by rw [standby], by rw [trip], .inl (by rw [trip]), .inr ⟨power, by rw [trip, idle]; decide⟩⟩
  unfold settleForReturn
  split
  · rename_i idle
    split
    · exact off idle rfl rfl rfl
    · split
      · exact off idle rfl rfl rfl
      · exact .refl r
  · exact .refl r

theorem returnBegun_eased (s : State) : Eased s (returnBegun s) where
  active := rfl
  site := rfl
  link := rfl
  offer := rfl
  stepLimit := rfl
  reserves := rfl
  gate := ⟨rfl, rfl⟩
  cars c := by rw [returnBegun_car]; exact settleForReturn_lightened _

/-- RETURN is entered with the entries dropped and the idle cars in recall unpowered (R115). -/
theorem enterReturn_eased (s : State) : Eased s (enterReturn s) := by
  have entered : Eased s (enterPhase .returning s) :=
    .of_only (enterPhase_only (.refl s) .returning) (State.TripsAgree.enterPhase_gate ..)
      (fun d => .inl (by rw [State.trip, enterPhase_car]; rfl)) fun d => .inl (by rw [enterPhase_car])
  rw [enterReturn_eq]
  exact ((entered.trans (dropAllEntries_eased _)).trans (returnBegun_eased _)).trans (clearanceCheck_eased _)

theorem enterReturn_phase (s : State) : (enterReturn s).plan.phase = .returning := by
  have begun : (returnBegun (emptied .returning s)).plan.phase = .returning :=
    congrArg Plan.phase (emptied_plan .returning s)
  rw [enterReturn_eq, clearanceCheck_phase, begun]

/-! ## Acts and their closing -/

/-- An owner's act before its event closes: it starts no trip, and leaves what the closing asks for. -/
structure Acted (s x : State) : Prop where
  noStart : NoStart s x
  ready : x.Ready
  trips : x.TripsAgree

theorem Acted.closes (h : Acted s x) (k : Cause) (s0 : State) : GrantsWell late s (closeEvent k s0 x) :=
  h.noStart.grantsWell.closeEvent h.ready h.trips k s0

/-- A grant before the parking check is made on an evaluated account (R76). -/
theorem GrantsWell.earlyGrant (h : NoStart s x) (control : x.Controlled) (s0 : State) :
    GrantsWell late s (earlyGrant s0 x) := by
  have evaluated : GrantsWell late s (evaluate x) :=
    (h.trans (evaluate_eased x).noStart).grantsWell
  unfold Machine.earlyGrant
  dsimp only
  split
  · exact h.grantsWell
  · split
    · exact h.grantsWell
    · exact evaluated.grantMoves control.ready.evaluate (grantIfDue_grantMoves s0 _)

/-- The end of a trip starts no other but by the grant of its event, in either order (R76). -/
theorem GrantsWell.tripEnded (settled : s.Settled) (trips : s.TripsAgree) (moves : (s.trip c).state.moving = true) :
    GrantsWell late s (tripEnded c s) := by
  have stages : Acted s (tripEndStages c s) :=
    ⟨(NoStart.refl s).tripEndStages, settled.controlled.tripEndStages.ready, trips.tripEndStages moves⟩
  have control : (tripEndStages c s).Controlled := settled.controlled.tripEndStages
  have parkedFirst : Acted s (tripEndChecks c (tripEndStages c s)) :=
    ⟨stages.noStart.parkingCheck.deselectionCheck.clearanceCheck,
      (control.of_control (by unfold tripEndChecks; simp)).ready,
      stages.trips.parkingCheck.deselectionCheck.clearanceCheck⟩
  have checked := control.of_control (deselectionCheck_control (s := tripEndStages c s) (c := c))
  have early : GrantsWell late s (Machine.earlyGrant s (deselectionCheck c (tripEndStages c s))) :=
    .earlyGrant stages.noStart.deselectionCheck checked s
  have grantedFirst := (early.eased (parkingCheck_eased c _) (by rw [parkingCheck_phase]; exact id)).eased
    (clearanceCheck_eased _) (by rw [clearanceCheck_phase]; exact id)
  unfold Machine.tripEnded
  dsimp only
  split
  · refine (parkedFirst.closes {} s).eitherOrder (grantedFirst.closeEvent ?_ ?_ {} s)
    · exact ((checked.earlyGrant s).of_control (by simp)).ready
    · exact ((stages.trips.deselectionCheck.moves (earlyGrant_moves s _)).parkingCheck).clearanceCheck
  · exact parkedFirst.closes {} s

/-- A complete request starts no trip but with what R67 promises. -/
theorem GrantsWell.requestAct (settled : s.Settled) (kept : s.TripsKept) (p : Port) (r : Request)
    (args : List Byte) : GrantsWell late s (requestAct p r args s).1 := by
  have control := settled.controlled
  have trips := kept.trips
  have calm := NoStart.refl s
  have same {t : State} (k : t.control = s.control) : t.Ready := (control.of_control k).ready
  have closed {k : Cause} {act : State → State × ReqOutcome} (acted : Acted s (act s).1) :
      GrantsWell late s (closing k act s).1 := acted.closes k s
  have accepted {k : Cause} {f : State → State} (acted : Acted s (f s)) :
      GrantsWell late s (closing k (accepting f) s).1 := acted.closes k s
  unfold Machine.requestAct
  split
  · exact closed ⟨calm.takeTrip _ _, same (takeTrip_control ..), trips.takeTrip _ _⟩
  · exact accepted ⟨calm.withdrawTrip, same (withdrawTrip_control ..), trips.withdrawTrip⟩
  · exact accepted ⟨calm.atSpeed, same (atSpeed_control ..), trips.atSpeed⟩
  · show GrantsWell late s (startFailed _ s)
    unfold startFailed
    split
    · rename_i due; exact .tripEnded settled trips (by rw [due.2]; rfl)
    · exact calm.grantsWell
  · show GrantsWell late s (carStopped _ s)
    unfold carStopped
    split
    · rename_i due; exact .tripEnded settled trips due.2
    · exact calm.grantsWell
  · exact accepted ⟨calm.takeState _, control.takeState.ready, trips.takeState _⟩
  · exact closed ⟨calm.takeSupply _, control.takeSupply, trips.takeSupply _⟩
  · exact accepted ⟨calm.takeRecovered, same (takeRecovered_control s), trips.takeRecovered⟩
  · exact closed ⟨calm.takeReserve _ _, control.takeReserve.ready, trips.takeReserve _ _⟩
  · exact closed ⟨calm.takeClaim _, same (takeClaim_control ..), trips.takeClaim _⟩
  · exact closed ⟨calm.releaseClaim, same (releaseClaim_control s), trips.releaseClaim⟩
  · exact accepted ⟨calm.takeSelect _, same (takeSelect_control ..), trips.takeSelect _⟩
  · exact closed ⟨calm.takeInclude _ _, same (takeInclude_control ..),
      trips.takeInclude (fun e on => (kept.records.listHeld e on).2) _ _⟩
  · exact closed ⟨calm.takeRelease _, control.takeRelease.ready, trips.takeRelease _⟩
  · exact (calm.takeSiteWrite _).grantsWell
  · exact calm.grantsWell

/-! ## The supply link's return, and the report that brings it -/

/-- Out of the phases that grant, and with the gate out of CAR_START, no trip has just been granted. -/
theorem GrantsWell.noStart (h : GrantsWell late s t) (no : ¬ t.plan.phase.Grants late ∨ t.gate.state ≠ .carStart) :
    NoStart s t where
  was c starts := by
    by_contra was
    have g := h.granted c was starts
    exact no.elim (fun phase => phase g.phase) fun gate => gate g.gate

/-- The link's return runs the grant rule, if the link was not UP (R118). -/
theorem GrantsWell.supplyLinkUp (settled : s.Settled) (trips : s.TripsAgree) :
    GrantsWell False s (supplyLinkUp s) := by
  have heard : Acted s s.supplyHeard :=
    ⟨.of_cars rfl, (settled.controlled.of_control (t := s.supplyHeard) rfl).ready,
      trips.parts rfl rfl rfl rfl (.refl _)⟩
  unfold Machine.supplyLinkUp
  dsimp only
  split
  · exact heard.noStart.grantsWell
  · exact heard.closes {} s

/-- A RECOVERED opens a gate in RECOVERY alone: a trip granted as the link came back holds the gate (R77, R118). -/
theorem GrantsWell.takeRecovered (h : GrantsWell late s x) : GrantsWell late s (takeRecovered x) := by
  by_cases gate : x.gate.state = .recovery
  · exact ((h.noStart (.inr (by rw [gate]; decide))).takeRecovered).grantsWell
  · rw [Machine.takeRecovered, if_neg gate]; exact h

theorem activateOnMains_off (phase : x.plan.phase ≠ .mains) : activateOnMains x = x := by
  rw [activateOnMains, if_neg fun due => phase due.1]

/-- A report after the link's return takes the phase to RETURN, or ends the trip just granted (R101, R103, R104,
R118). -/
theorem GrantsWell.takeSupply (h : GrantsWell False s x) (u : Byte) : GrantsWell True s (takeSupply u x).1 := by
  have weaker : GrantsWell True s x := h.mono False.elim
  have still (k : NoStart s x) : GrantsWell True s (Machine.takeSupply u x).1 := (k.takeSupply u).grantsWell
  have loud (phase : x.plan.phase = .recall ∨ x.plan.phase = .service) :
      GrantsWell True s (Machine.takeSupply u x).1 := by
    have away : x.plan.phase ≠ .mains := by rcases phase with e | e <;> rw [e] <;> decide
    unfold Machine.takeSupply
    split
    · exact weaker
    · rename_i r _
      have reported (y : State) (same : reportSupply r x = y) (well : GrantsWell True s (activateOnMains y)) :
          GrantsWell True s (activateOnMains (reportSupply r x)) := same ▸ well
      cases r with
      | mains =>
        refine reported (enterMains x) (by unfold reportSupply; rcases phase with e | e <;> rw [e]) ?_
        exact (NoStart.enterMains s x).activateOnMains.grantsWell
      | genReady =>
        refine reported x (by unfold reportSupply; rcases phase with e | e <;> rw [e]) ?_
        rw [activateOnMains_off away]; exact weaker
      | retransfer =>
        refine reported (enterReturn x) (by unfold reportSupply; rcases phase with e | e <;> rw [e]) ?_
        rw [activateOnMains_off (by rw [enterReturn_phase]; decide)]
        exact h.eased (enterReturn_eased x) fun _ => .inr (.inr ⟨trivial, enterReturn_phase x⟩)
      | _ =>
        refine reported (generatorLoss x) (by unfold reportSupply; rcases phase with e | e <;> rw [e]) ?_
        exact (NoStart.generatorLoss s x).activateOnMains.grantsWell
  by_cases phase : x.plan.phase = .recall ∨ x.plan.phase = .service
  · exact loud phase
  · refine still (h.noStart (.inl ?_))
    rintro (e | e | ⟨⟨⟩, -⟩)
    · exact phase (.inl e)
    · exact phase (.inr e)

end Sys2Proof.Machine
end

section
/-!
PROOFS. One act of one unit grants safely: a port's link comes back, a request acts, PROTOCOL is told, or a field of
OFFER or PROFILE is latched (R18, R45, R118, R137, R138).
-/

namespace Sys2Proof.Machine

variable {late : Prop} {s t u x : State} {c : CarIx} {p : Port}

theorem Rewired.eased (h : Rewired s t) : Eased s t := by
  have rest := h.rest
  refine ⟨?_, ?_, ?_, ?_, ?_, ?_, ?_, fun c => ?_⟩ <;> rw [rest]
  · exact ⟨rfl, rfl⟩
  · exact .refl _

theorem Rewired.phase (h : Rewired s t) : t.plan.phase = s.plan.phase := by rw [h.rest]

theorem GrantsWell.rewired (h : GrantsWell late s t) (k : Rewired t u) : GrantsWell late s u :=
  h.eased k.eased (by rw [k.phase]; exact id)

theorem State.Settled.rewired (h : s.Settled) (k : Rewired s t) : t.Settled := by
  have rest := k.rest
  exact h.of_same (by rw [rest]; exact .parts rfl rfl rfl rfl rfl) (by rw [rest]; rfl)

/-- Where the supply link is UP already, or the port is another, nothing is granted as a link comes back. -/
theorem linkUp_noStart (h : p ≠ .supply ∨ s.supplyLink.link = .up) : NoStart s (linkUp p s) := by
  cases p with
  | car c =>
    show NoStart s (carLinkUp c s)
    unfold carLinkUp
    refine (NoStart.refl s).edit fun r => ?_
    dsimp only
    split <;> rfl
  | supply =>
    show NoStart s (supplyLinkUp s)
    rw [supplyLinkUp, if_pos (h.resolve_left fun no => no rfl)]
    exact .of_cars rfl
  | panel => exact .of_cars (t := panelLinkUp s) rfl

/-- A link comes back: the supply's alone runs the grant rule. -/
theorem GrantsWell.linkUp (settled : s.Settled) (trips : s.TripsAgree) (p : Port) :
    GrantsWell False s (linkUp p s) := by
  cases p with
  | car c => exact (linkUp_noStart (.inl fun own => by cases own)).grantsWell
  | supply => exact .supplyLinkUp settled trips
  | panel => exact (linkUp_noStart (.inl fun own => by cases own)).grantsWell

/-- PROTOCOL is a notice. -/
theorem noticeProtocol_rewired (h : s.hears p) : Rewired s (noticeProtocol p s) := by
  cases p with
  | car c =>
    rcases s.noticeCar_eq c .protocol with e | e <;> rw [noticeProtocol, e]
    · exact .refl s
    · exact .of_hears h _
  | supply => exact .of_hears h fun i => { i with notices := i.notices ||| noticeBit SupplyNotice.protocol.number }
  | panel => exact .of_hears h fun i => { i with notices := i.notices ||| noticeBit PanelNotice.protocol.number }

/-- A request of its own port grants safely, whether its link was UP or comes back with it. -/
theorem GrantsWell.request (settled : s.Settled) (kept : s.TripsKept) (hears : s.hears p) {r : Request}
    (own : r ∈ requestsOf p) (args : List Byte) :
    GrantsWell (s.supplyLink.link ≠ .up) s (Machine.requestAct p r args (Machine.linkUp p s)).1 := by
  have heard : (Machine.linkUp p s).Settled := settled.linkUp
  have linked := kept.linkUp hears
  by_cases plain : p ≠ .supply ∨ s.supplyLink.link = .up
  · exact (GrantsWell.requestAct heard linked p r args).from (linkUp_noStart plain)
  · obtain ⟨supply, down⟩ := not_or.1 plain
    obtain rfl := not_not.1 supply
    have back : GrantsWell False s (Machine.linkUp .supply s) := .linkUp settled kept.trips .supply
    generalize Machine.linkUp .supply s = x at heard linked back
    have control := heard.controlled
    have granted : GrantsWell (s.supplyLink.link ≠ .up) s x := back.mono False.elim
    have plainly : (r = .supply ∨ r = .recovered) ∨ Machine.requestAct .supply r args = accepting id := by
      simp only [requestsOf, commonRequests, supplyRequests, List.mem_append, List.mem_cons, List.not_mem_nil,
        or_false] at own
      rcases own with (rfl | rfl) | rfl | rfl | rfl | rfl
      · exact .inr rfl
      · exact .inr rfl
      · exact .inl (.inl rfl)
      · exact .inr rfl
      · exact .inl (.inr rfl)
      · exact .inr rfl
    rcases plainly with (rfl | rfl) | same
    · exact (((back.takeSupply _).mono fun _ => down).closeEvent control.takeSupply (linked.trips.takeSupply _) {} x)
    · exact granted.takeRecovered.closeEvent ((control.of_control (takeRecovered_control x)).ready)
        linked.trips.takeRecovered {} x
    · rw [same]; exact granted

theorem latchOffer_ready (h : s.Settled) (args : List Byte) :
    ({ s with account := latchOffer args s.account } : State).Ready := by
  refine ⟨?_, ?_⟩
  · rw [latchOffer_overcommit]; exact h.controlled.ready.idle
  · rw [latchOffer_overcommit]; exact h.controlled.ready.active

/-- A latch of OFFER closes an event of its own (R19). -/
theorem GrantsWell.offerStep (settled : s.Settled) (trips : s.TripsAgree) (args : List Byte) :
    GrantsWell late s (offerStep args s) := by
  have latched : Acted s { s with account := latchOffer args s.account } :=
    ⟨.of_cars rfl, latchOffer_ready settled args, trips.parts rfl rfl rfl rfl (.refl _)⟩
  exact latched.closes {} s

/-- OFFER's last latch is the absorb limit's, by which no grant is measured (R32). -/
theorem GrantsWell.lastOffer (settled : s.Settled) (trips : s.TripsAgree) {args : List Byte}
    (full : 6 ≤ args.length) : GrantsWell late s (Machine.offerStep args (Machine.linkUp .supply s)) := by
  have back : GrantsWell late s (Machine.linkUp .supply s) :=
    (GrantsWell.linkUp settled trips .supply).mono False.elim
  have heard : (Machine.linkUp .supply s).Settled := settled.linkUp
  have linked := trips.linkUp .supply
  generalize Machine.linkUp .supply s = x at back heard linked
  have kept : (latchOffer args x.account).offer = x.account.offer ∧
      (latchOffer args x.account).stepLimit = x.account.stepLimit ∧
      (latchOffer args x.account).reserves = x.account.reserves := by
    unfold latchOffer
    split
    · omega
    · omega
    all_goals exact ⟨rfl, rfl, rfl⟩
  obtain ⟨offer, step, reserves⟩ := kept
  have eased : Eased x { x with account := latchOffer args x.account } :=
    ⟨rfl, rfl, rfl, offer, step, reserves, ⟨rfl, rfl⟩, fun _ => .refl _⟩
  exact (back.eased eased id).closeEvent (latchOffer_ready heard args) (linked.parts rfl rfl rfl rfl (.refl _)) {} x

end Sys2Proof.Machine
end

section
/-!
PROOFS. A well-formed command brings at most one act that can grant: its units wait for the last of their request, and
the units after it are carried out as a reply's or discarded (R136, R138, R139); a field of OFFER comes in two units at
most (R18).
-/

namespace Sys2Proof.Machine

variable {s t u x y : State} {c : CarIx} {p : Port}

/-! ## A port between requests -/

/-- No request is in progress on the port. -/
def State.Unasked (s : State) (p : Port) : Prop := (s.port p).request = none

theorem State.Unasked.told (h : s.Unasked p) (k : Told s t) : t.Unasked p :=
  (congrArg PortIf.request (k.framing p)).trans h

theorem State.Unasked.updPort (h : s.Unasked p) {f : PortIf → PortIf} (same : ∀ i, (f i).request = i.request) :
    (s.updPort p f).Unasked p := by
  rw [State.Unasked, State.updPort_port_same, same]; exact h

/-- An activation leaves a port's request, or silences the port (R43). -/
theorem State.Unasked.activate (h : s.Unasked p) (i : Image) : (activate i s).Unasked p := by
  unfold State.Unasked at h ⊢
  cases p with
  | car c =>
    rw [activate_carPort]
    split
    · exact h
    · split
      · rfl
      · exact h
  | supply => rw [activate_port i s .supply fun c own => by cases own]; exact h
  | panel => rw [activate_port i s .panel fun c own => by cases own]; exact h

theorem State.Unasked.activateOnMains (h : s.Unasked p) : (activateOnMains s).Unasked p := by
  unfold Machine.activateOnMains
  split
  · unfold endStoreWrite
    extract_lets w a
    have written : State.Unasked { s with store := { w with
        state := .idle, writing := none, programTimer := none } } p := h
    have ended : a.Unasked p := written.told ((Told.refl _).noticePanel .storeDone)
    split
    · exact ended
    · exact ended.activate _
  · exact h

/-- A request's act asks for nothing on its own port. -/
theorem State.Unasked.requestAct (h : s.Unasked p) (q : Port) (r : Request) (args : List Byte) :
    (requestAct q r args s).1.Unasked p := by
  have closed {k : Cause} {act : State → State × ReqOutcome} (acted : (act s).1.Unasked p) :
      (closing k act s).1.Unasked p := acted.told ((Told.refl _).closeEvent k s)
  have told {k : Cause} {act : State → State × ReqOutcome} (acted : Told s (act s).1) :
      (closing k act s).1.Unasked p := closed (h.told acted)
  have accepted {k : Cause} {f : State → State} (acted : Told s (f s)) :
      (closing k (accepting f) s).1.Unasked p := closed (h.told acted)
  unfold Machine.requestAct
  split
  · exact told (.takeTrip _ _ _ s)
  · exact accepted (.of_only (withdrawTrip_only (.refl s) _))
  · exact accepted (.of_only (atSpeed_only (.refl s) _))
  · exact h.told (.startFailed _ s)
  · exact h.told (.carStopped _ s)
  · exact accepted (.takeState _ _ s)
  · refine closed ?_
    unfold takeSupply
    split
    · exact h
    · exact (h.told (.reportSupply _ s)).activateOnMains
  · exact accepted (.takeRecovered s)
  · exact told (.takeReserve _ _ s)
  · exact told (.takeClaim _ s)
  · exact told (.releaseClaim s)
  · exact accepted (.takeSelect args s)
  · exact told (.takeInclude _ _ s)
  · exact told (.takeRelease _ s)
  · unfold takeSiteWrite
    split
    · exact h
    · split
      · exact h
      · split
        · exact h
        · exact h
  · exact h

/-! ## A state that a command has not acted on, and one it has -/

/-- The command's act is still to come: its units have moved nothing that a grant is made on. -/
structure Before (s x : State) : Prop where
  noStart : NoStart s x
  link : x.supplyLink.link = s.supplyLink.link
  settled : x.Settled
  kept : x.TripsKept
  linked : x.LinkedSound none

/-- The trips that a command starting in `s` may start. -/
abbrev SafeAfter (s x : State) : Prop := GrantsWell (s.supplyLink.link ≠ .up) s x

namespace Before

theorem of_sound (h : s.Sound) : Before s s :=
  ⟨.refl s, rfl, h.settled, .of_sound h, .of_sound h⟩

theorem safe (h : Before s x) : SafeAfter s x := h.noStart.grantsWell

theorem acted (h : Before s x) (k : GrantsWell (x.supplyLink.link ≠ .up) x y) : SafeAfter s y := by
  rw [h.link] at k
  exact k.from h.noStart

theorem rewired (h : Before s x) (k : Rewired x y) (linked : y.LinkedSound none) : Before s y where
  noStart := h.noStart.trans k.eased.noStart
  link := k.eased.link.trans h.link
  settled := h.settled.rewired k
  kept := h.kept.rewired k
  linked := linked

end Before

/-- A request that completes grants safely, and leaves none in progress. -/
theorem complete_safe (h : Before s x) (hears : x.hears p) {act : State → State × ReqOutcome}
    (acts : ∀ v : State, v.Settled → v.TripsKept → v.hears p →
      GrantsWell (v.supplyLink.link ≠ .up) v (act (linkUp p v)).1)
    (idle : ∀ v : State, v.Unasked p → (act v).1.Unasked p) :
    SafeAfter s (complete p act x) ∧ (complete p act x).Unasked p := by
  have cleared : Rewired x (setRequest p none x) := .of_hears hears _
  have before := h.rewired cleared h.linked.setRequest_none
  have unasked : (setRequest p none x).Unasked p := by
    rw [State.Unasked, setRequest, State.updPort_port_same]
  constructor
  · refine (before.acted (acts _ before.settled before.kept (cleared.hears_iff.2 hears))).rewired ?_
    exact .of_notices p (fun i => { i with outcome := _ }) fun _ => rfl
  · exact (idle _ (unasked.told (.linkUp p _))).updPort fun _ => rfl

theorem request_safe (h : Before s x) (hears : x.hears p) {r : Request} (own : r ∈ requestsOf p) (args : List Byte) :
    SafeAfter s (complete p (requestAct p r args) x) ∧ (complete p (requestAct p r args) x).Unasked p :=
  complete_safe h hears (fun _ settled kept hears => .request settled kept hears own args)
    fun _ idle => idle.requestAct p r args

/-- An answer, and PROTOCOL, grant what the link's return grants. -/
theorem answer_safe (settled : s.Settled) (kept : s.TripsKept) (p : Port) :
    GrantsWell (s.supplyLink.link ≠ .up) s (linkUp p s) :=
  (GrantsWell.linkUp settled kept.trips p).mono False.elim

/-! ## The opcode unit -/

theorem opcodeUnit_safe (h : Before s x) (hears : x.hears p) (code : Byte) : SafeAfter s (opcodeUnit p code x) := by
  have ended : Rewired x (endPrevious p x) := .of_hears hears _
  have linked : (endPrevious p x).LinkedSound none :=
    h.linked.exchange (f := fun i => { i with
      request := none, reply := none, outcome := if i.request.isSome then .abandoned else i.outcome })
      ((h.linked.lines.lined p).ended (.inl rfl)) fun _ => rfl
  have before := h.rewired ended linked
  have heard := ended.hears_iff.2 hears
  have answered := answer_safe before.settled before.kept p
  unfold Machine.opcodeUnit
  split
  · rename_i r named
    unfold startRequest
    split
    · exact (before.acted answered).rewired (.of_notices p (fun i => { i with reply := _ }) fun _ => rfl)
    · split
      · exact (complete_safe before heard (fun _ settled kept _ => answer_safe settled kept p) fun _ => id).1
      · split
        · exact (request_safe before heard (mem_requestsOf_of_code named) []).1
        · exact before.safe.rewired (.of_hears heard _)
  · refine (complete_safe before heard (fun v settled kept hears => ?_) fun v idle => ?_).1
    · refine (answer_safe settled kept p).rewired (noticeProtocol_rewired ?_)
      exact hears.of_store (linkUp_store p v)
    · exact idle.told (.noticeProtocol p v)

end Sys2Proof.Machine
end

section
/-!
PROOFS. The argument units of a command, and every command.
-/

namespace Sys2Proof.Machine

variable {s t u x y : State} {c : CarIx} {p : Port}

/-! ## One argument unit -/

/-- No OFFER is in progress on the port. -/
def State.NoOffer (x : State) (p : Port) : Prop := ∀ q, (x.port p).request = some q → q.req ≠ .offer

theorem State.Unasked.noOffer (h : x.Unasked p) : x.NoOffer p := fun _ held => by
  rw [h] at held; cases held

/-- A limit of OFFER has been latched, and the next unit latches none (R18). -/
structure State.Latched (x : State) : Prop where
  settled : x.Settled
  half : ∃ q, (x.port .supply).request = some q ∧ q.req = .offer ∧ (q.args.length = 2 ∨ q.args.length = 4)

/-- What an argument unit leaves: the command's act is still to come, or its request is answered, or a limit is latched
(`plain`: not with another request than OFFER). -/
inductive UnitLeaves (p : Port) (s : State) (plain : Prop) (y : State) : Prop
  | before (h : Before s y) (still : plain → y.NoOffer p)
  | answered (safe : SafeAfter s y) (idle : y.Unasked p)
  | latched (own : p = .supply) (safe : SafeAfter s y) (offer : ¬ plain) (half : y.Latched)

theorem UnitLeaves.safe {plain : Prop} (h : UnitLeaves p s plain y) : SafeAfter s y := by
  cases h with
  | before h => exact h.safe
  | answered safe => exact safe
  | latched _ safe => exact safe

theorem UnitLeaves.of_complete {plain : Prop} (h : SafeAfter s y ∧ y.Unasked p) : UnitLeaves p s plain y :=
  .answered h.1 h.2

theorem setRequest_noOffer {q : InProgress} : (setRequest p (some q) x).NoOffer p ↔ q.req ≠ .offer := by
  rw [State.NoOffer, setRequest, State.updPort_port_same]
  simp

/-- After the first unit of a pair OFFER latches nothing, and nothing follows (R18, R19). -/
theorem offerStep_first (h : x.Settled) {args : List Byte}
    (odd : args.length = 1 ∨ args.length = 3 ∨ args.length = 5) : offerStep args x = x := by
  have same : latchOffer args x.account = x.account := by
    unfold latchOffer
    split
    · omega
    · omega
    · omega
    · rfl
  rw [offerStep, same]
  exact closeEvent_self h

theorem offerUnit_leaves (h : Before s x) {q : InProgress} (offer : q.req = .offer) (units : 0 < q.args.length)
    (linked : (offerUnit q x).LinkedSound none) : UnitLeaves .supply s (q.req ≠ .offer) (offerUnit q x) := by
  have hears := supply_hears x
  unfold offerUnit at linked ⊢
  split
  · rename_i more
    rw [if_pos more] at linked
    by_cases even : q.args.length = 2 ∨ q.args.length = 4
    · have step : SafeAfter s (offerStep q.args x) := h.acted (.offerStep h.settled h.kept.trips q.args)
      refine .latched rfl (step.rewired (.of_notices .supply (fun i => { i with request := _ }) fun _ => rfl))
        (fun no => no offer) ⟨?_, q, ?_, offer, even⟩
      · exact (h.settled.offerStep q.args).updPort
      · rw [setRequest, State.updPort_port_same]
    · have same := offerStep_first h.settled (args := q.args) (by omega)
      rw [same] at linked ⊢
      exact .before (h.rewired (.of_hears hears _) linked) fun no => absurd offer no
  · rename_i full
    refine .of_complete (complete_safe h hears (fun v settled kept _ => ?_) fun v idle => ?_)
    · exact .lastOffer settled kept.trips (by omega)
    · exact idle.told (.offerStep q.args v)

theorem profileUnit_leaves (h : Before s x) (hears : x.hears (.car c)) {q : InProgress} {plain : Prop}
    (other : q.req ≠ .offer) (linked : (profileUnit c q x).LinkedSound none) :
    UnitLeaves (.car c) s plain (profileUnit c q x) := by
  have unlatched (t : State) : NoStart t (t.updCar c fun r => { r with profile := latchProfile q.args r.profile }) :=
    (NoStart.refl t).edit fun _ => rfl
  unfold profileUnit at linked ⊢
  split
  · rename_i few
    rw [if_pos few] at linked
    exact .before (h.rewired (.of_hears hears _) linked) fun _ => setRequest_noOffer.2 other
  · rename_i enough
    rw [if_neg enough] at linked
    split
    · refine .of_complete (complete_safe h hears (fun v settled kept _ => ?_) fun _ => id)
      exact answer_safe settled kept (.car c)
    · rename_i takes
      rw [if_neg takes] at linked
      dsimp only at linked ⊢
      have rests : (x.car c).powered = false := by
        refine (h.kept.trips.rests (c := c) ⟨?_, ?_, ?_⟩).2 <;>
          exact fun role => takes (by rw [role]; rfl)
      split
      · rename_i more
        rw [if_pos more] at linked
        have latched : Before s (setRequest (.car c) (some q)
            (x.updCar c fun r => { r with profile := latchProfile q.args r.profile })) :=
          { noStart := (h.noStart.trans (unlatched x)).cars rfl
            link := h.link
            settled := (h.settled.of_same (profileLatch_sameAccount rests q.args) rfl).updPort
            kept := (h.kept.latch hears q.args).rewired
              (.of_notices (.car c) (fun i => { i with request := _ }) fun _ => rfl)
            linked := linked }
        exact .before latched fun _ => setRequest_noOffer.2 other
      · refine .of_complete (complete_safe h hears (fun v settled kept _ => ?_) fun v idle => ?_)
        · exact ((linkUp_noStart (.inl fun own => by cases own)).trans (unlatched _)).grantsWell
        · exact idle

theorem handUnit_leaves (h : Before s x) (hears : x.hears p) {q : InProgress} (own : q.req ∈ requestsOf p)
    (units : 0 < q.args.length) (linked : (handUnit p q x).LinkedSound none) :
    UnitLeaves p s (q.req ≠ .offer) (handUnit p q x) := by
  revert linked
  unfold handUnit
  split
  · rename_i c profile
    exact profileUnit_leaves h hears (by rw [profile]; decide)
  · rename_i p _ _ offer
    cases p with
    | supply => exact offerUnit_leaves h offer units
    | car c => rw [offer] at own; exact absurd own (by simp [requestsOf, commonRequests, carRequests])
    | panel => rw [offer] at own; exact absurd own (by decide)
  · intro linked
    split
    · rename_i more
      rw [if_pos more] at linked
      exact .before (h.rewired (.of_hears hears _) linked) fun plain => setRequest_noOffer.2 plain
    · exact .of_complete (request_safe h hears own _)

theorem carried_rewired (p : Port) (x : State) (kind : Bool) :
    Rewired x (x.updPort p fun i => i.carried (i.dataFor kind)) :=
  .of_notices p (fun i => i.carried (i.dataFor kind)) fun _ => rfl

theorem beginUnit_rewired (p : Port) (x : State) : Rewired x (beginUnit p x) :=
  .of_notices p (fun i => { i with selLow := true, shiftIn := [] }) fun _ => rfl

theorem beginUnit_request (p : Port) (x : State) : ((beginUnit p x).port p).request = (x.port p).request := by
  rw [beginUnit, State.updPort_port_same]

/-- A unit that no request takes carries a reply unit out, or is discarded (R136, R138). -/
theorem shiftUnit_unasked (idle : x.Unasked p) (data : Byte) :
    Rewired x (shiftUnit p true data x) ∧ (shiftUnit p true data x).Unasked p := by
  cases takes : ignores x p with
  | true =>
    rw [shiftUnit_ignored takes]
    exact ⟨beginUnit_rewired p x, (beginUnit_request p x).trans idle⟩
  | false =>
    have hears := hears_of_takes takes
    have carried := carried_rewired p x true
    have idle : (x.updPort p fun i => i.carried (i.dataFor true)).Unasked p := idle.updPort fun _ => rfl
    rw [shiftUnit_eq takes, if_pos rfl]
    generalize x.updPort p (fun i => i.carried (i.dataFor true)) = v at carried idle
    unfold argUnit
    rw [idle]
    dsimp only
    split
    · rename_i rep _
      exact ⟨carried.trans (.of_hears (carried.hears_iff.2 hears) _), idle.updPort fun _ => rfl⟩
    · exact ⟨carried, idle⟩

theorem shiftUnit_leaves (h : Before s x) (data : Byte) :
    UnitLeaves p s (x.NoOffer p) (shiftUnit p true data x) := by
  have linked : (shiftUnit p true data x).LinkedSound none := h.linked.shiftUnit true data
  cases takes : ignores x p with
  | true =>
    rw [shiftUnit_ignored takes] at linked ⊢
    refine .before (h.rewired (beginUnit_rewired p x) linked) fun plain => ?_
    rw [State.NoOffer, beginUnit_request]; exact plain
  | false =>
    cases held : (x.port p).request with
    | none =>
      obtain ⟨rewired, idle⟩ := shiftUnit_unasked held data
      exact .answered (h.safe.rewired rewired) idle
    | some q =>
      have hears := hears_of_takes takes
      have own := (h.linked.lines.lined p).own q held
      have carried : Rewired x (x.updPort p (.carried 0xFF)) := .of_hears hears _
      have before : Before s (x.updPort p (.carried 0xFF)) :=
        h.rewired carried ⟨h.linked.lines.updPort ((h.linked.lines.lined p).carried _) (.inr rfl),
          h.linked.store.of_store rfl⟩
      rw [shiftUnit_handed takes held] at linked ⊢
      have same : x.NoOffer p ↔ q.req ≠ .offer := by simp [State.NoOffer, held]
      rw [same]
      exact handUnit_leaves (q := { q with args := q.args ++ [data] }) before (carried.hears_iff.2 hears) own
        (by simp) linked

/-- The unit after a latch of OFFER latches nothing (R18). -/
theorem State.Latched.next (h : x.Latched) (data : Byte) : Rewired x (shiftUnit .supply true data x) := by
  cases takes : ignores x .supply with
  | true => rw [shiftUnit_ignored takes]; exact beginUnit_rewired .supply x
  | false =>
    obtain ⟨q, held, offer, half⟩ := h.half
    have hears := supply_hears x
    have carried : Rewired x (x.updPort .supply (.carried 0xFF)) := .of_hears hears _
    have settled := h.settled.rewired carried
    have odd : (q.args ++ [data]).length = 3 ∨ (q.args ++ [data]).length = 5 := by
      rw [List.length_append, List.length_singleton]; omega
    rw [shiftUnit_handed takes held]
    refine carried.trans ?_
    generalize x.updPort .supply (.carried 0xFF) = v at settled
    have handed : handUnit .supply { q with args := q.args ++ [data] } v =
        setRequest .supply (some { q with args := q.args ++ [data] }) v := by
      unfold handUnit
      simp only [offer]
      rw [offerUnit, if_pos (by dsimp only; omega), offerStep_first settled (.inr odd)]
    rw [handed]
    exact .of_hears (supply_hears v) _

/-! ## The argument units of a command -/

theorem shiftUnits_unasked (idle : x.Unasked p) (data : List Byte) :
    Rewired x (shiftUnits p (data.map fun d => (true, d)) x) := by
  induction data generalizing x with
  | nil => exact .refl x
  | cons d data ih =>
    obtain ⟨first, idle⟩ := shiftUnit_unasked idle d
    exact first.trans (ih idle)

/-- Any number of units grants safely where no OFFER is in progress. -/
theorem shiftUnits_safe (h : Before s x) (plain : x.NoOffer p) (data : List Byte) :
    SafeAfter s (shiftUnits p (data.map fun d => (true, d)) x) := by
  induction data generalizing x with
  | nil => exact h.safe
  | cons d data ih =>
    cases shiftUnit_leaves (p := p) h d with
    | before first still => exact ih first (still plain)
    | answered safe idle => exact safe.rewired (shiftUnits_unasked idle data)
    | latched _ _ offer => exact absurd plain offer

/-- One or two units grant safely whatever request is in progress (R18). -/
theorem shiftUnits_few (h : Before s x) {data : List Byte} (few : data.length ≤ 2) :
    SafeAfter s (shiftUnits p (data.map fun d => (true, d)) x) := by
  match data, few with
  | [], _ => exact h.safe
  | [d], _ => exact (shiftUnit_leaves h d).safe
  | [d, e], _ =>
    show SafeAfter s (shiftUnit p true e (shiftUnit p true d x))
    cases shiftUnit_leaves (p := p) h d with
    | before first => exact (shiftUnit_leaves first e).safe
    | answered safe idle => exact safe.rewired (shiftUnit_unasked idle e).1
    | latched own safe _ half => exact own ▸ safe.rewired (own ▸ half.next e)

end Sys2Proof.Machine
end

section
/-!
PROOFS. Every well-formed command grants safely (R67): a port's by its units, a timer's and the store's by the event
they close; and O58.
-/

namespace Sys2Proof.Machine

variable {s t : State} {p : Port}

/-! ## The commands of the ports -/

/-- A port that takes no units has its lines moved, and nothing else. -/
theorem shiftUnits_ignored (takes : ignores s p = true) (units : List (Bool × Byte)) :
    Rewired s (shiftUnits p units s) := by
  induction units generalizing s with
  | nil => exact .refl s
  | cons u units ih =>
    have first : shiftUnit p u.1 u.2 s = beginUnit p s := shiftUnit_ignored takes u.1 u.2
    show Rewired s (shiftUnits p units (shiftUnit p u.1 u.2 s))
    rw [first]
    exact (beginUnit_rewired p s).trans (ih (by rw [beginUnit, ignores_updPort _ _ _ rfl]; exact takes))

theorem shiftOpcode_safe (sound : s.Sound) (code : Byte) : SafeAfter s (shiftOpcode p code s) := by
  have before := Before.of_sound sound
  cases takes : ignores s p with
  | true => exact before.safe.rewired (shiftUnits_ignored takes [(false, code)])
  | false =>
    have hears := hears_of_takes takes
    have carried := carried_rewired p s false
    rw [shiftOpcode, shiftUnit_eq takes, if_neg (by decide)]
    refine opcodeUnit_safe (before.rewired carried ?_) (carried.hears_iff.2 hears) code
    exact ⟨before.linked.lines.updPort ((before.linked.lines.lined p).carried _) (.inr rfl),
      before.linked.store.of_store rfl⟩

/-- OFFER is in progress on the supply port alone (R148). -/
theorem noOffer_of_port (h : s.LinkedSound none) (other : p ≠ .supply) : s.NoOffer p := fun q held offer => by
  have own := (h.lines.lined p).own q held
  rw [offer] at own
  cases p with
  | supply => exact other rfl
  | car c => exact absurd own (by simp [requestsOf, commonRequests, carRequests])
  | panel => exact absurd own (by decide)

theorem shiftArgs_safe (sound : s.Sound) {data : List Byte} (few : p = .supply → data.length ≤ 2) :
    SafeAfter s (shiftArgs p data s) := by
  have before := Before.of_sound sound
  rw [shiftArgs_eq]
  by_cases supply : p = .supply
  · exact shiftUnits_few before (few supply)
  · exact shiftUnits_safe before (noOffer_of_port before.linked supply) data

/-- A request whose units come after its opcode unit waits for them (R138). -/
structure Request.Takes (p : Port) (r : Request) : Prop where
  named : Request.ofCode p r.code = some r
  writes : r.isRead = false
  plain : r ≠ .profile ∧ r ≠ .offer
  units : r.argUnits [] ≠ 0

theorem arrive_safe (sound : s.Sound) {r : Request} (takes : Request.Takes p r) {u : Arrival} (fits : u.fits r = true)
    (few : p = .supply → r.argUnits [] ≤ 2 ∧ r ≠ .select) : SafeAfter s (arrive p r u s) := by
  have before := Before.of_sound sound
  cases u with
  | resumed args =>
    refine shiftArgs_safe sound fun supply => ?_
    obtain ⟨short, other⟩ := few supply
    have bound := (of_decide_eq_true fits).2
    split at bound
    · exact absurd rfl other
    · exact bound.trans short
  | opened args =>
    cases shut : ignores s p with
    | true =>
      rw [arrive_eq]
      exact before.safe.rewired (shiftUnits_ignored shut _)
    | false =>
      have opened := shiftOpcode_opens shut takes.named takes.writes takes.plain.1 takes.units
      have linked : (shiftOpcode p r.code s).LinkedSound none := before.linked.shiftUnit false r.code
      show SafeAfter s (shiftArgs p args (shiftOpcode p r.code s))
      rw [opened] at linked ⊢
      have rewired : Rewired s (s.updPort p (.opened (some ⟨r, []⟩) none)) := .of_hears (hears_of_takes shut) _
      rw [shiftArgs_eq]
      refine shiftUnits_safe (before.rewired rewired linked) (fun q held => ?_) args
      rw [State.updPort_port_same] at held
      cases held
      exact takes.plain.2

theorem cutUnit_safe (sound : s.Sound) {bits : List Bool} (short : bits.length ≤ 8) :
    SafeAfter s (cutUnit p bits s) := by
  have before := Before.of_sound sound
  cases takes : ignores s p with
  | true =>
    rw [cutUnit_ignored takes]
    exact before.safe.rewired (.of_notices p _ fun _ => rfl)
  | false =>
    rw [cutUnit_eq takes short]
    exact before.safe.rewired (.of_hears (hears_of_takes takes) _)

theorem car_takes (c : CarIx) : Request.Takes (.car c) .trip ∧ Request.Takes (.car c) .state :=
  ⟨⟨rfl, rfl, by decide, by decide⟩, ⟨rfl, rfl, by decide, by decide⟩⟩

theorem exec_sent_safe (sound : s.Sound) {i : Instr} (formed : i.wellFormed = true) (sender : senderOf i = some p)
    (run : exec i s = .next t) : SafeAfter s t := by
  have opcode (code : Byte) : SafeAfter s (shiftOpcode p code s) := shiftOpcode_safe sound code
  have field {data : List Byte} (few : fieldUnits data = true) : SafeAfter s (shiftArgs p data s) :=
    shiftArgs_safe sound fun _ => (of_decide_eq_true few).2
  have unit (data : Byte) : SafeAfter s (shiftArgs p [data] s) := shiftArgs_safe sound fun _ => by simp
  have panel {r : Request} (takes : Request.Takes .panel r) {u : Arrival} (fits : u.fits r = true) :
      SafeAfter s (arrive .panel r u s) := arrive_safe sound takes fits fun own => by cases own
  cases i with
  | trip c u =>
    cases sender; cases run
    exact arrive_safe sound (car_takes c).1 formed fun own => by cases own
  | withdraw c => cases sender; cases run; exact opcode _
  | atSpeed c => cases sender; cases run; exact opcode _
  | startFail c => cases sender; cases run; exact opcode _
  | stopped c => cases sender; cases run; exact opcode _
  | state c u =>
    cases sender; cases run
    exact arrive_safe sound (car_takes c).2 formed fun own => by cases own
  | profile c => cases sender; cases run; exact opcode _
  | profileFieldLatch c units => cases sender; cases run; exact field formed
  | readCar c => cases sender; cases run; exact opcode _
  | supply u =>
    cases sender; cases run
    exact arrive_safe (r := .supply) sound ⟨rfl, rfl, by decide, by decide⟩ formed fun _ => by decide
  | offer => cases sender; cases run; exact opcode _
  | offerFieldLatch units => cases sender; cases run; exact field formed
  | recovered => cases sender; cases run; exact opcode _
  | readSupply => cases sender; cases run; exact opcode _
  | reserve u => cases sender; cases run; exact panel ⟨rfl, rfl, by decide, by decide⟩ formed
  | gateClaim u => cases sender; cases run; exact panel ⟨rfl, rfl, by decide, by decide⟩ formed
  | gateRelease => cases sender; cases run; exact opcode _
  | select u => cases sender; cases run; exact panel ⟨rfl, rfl, by decide, by decide⟩ formed
  | includeCar u => cases sender; cases run; exact panel ⟨rfl, rfl, by decide, by decide⟩ formed
  | releaseCar u => cases sender; cases run; exact panel ⟨rfl, rfl, by decide, by decide⟩ formed
  | siteWrite u => cases sender; cases run; exact panel ⟨rfl, rfl, by decide, by decide⟩ formed
  | siteRead => cases sender; cases run; exact opcode _
  | readAccount => cases sender; cases run; exact opcode _
  | readPlan => cases sender; cases run; exact opcode _
  | readNotices q => cases sender; cases run; exact opcode _
  | readIdent q => cases sender; cases run; exact opcode _
  | unknownOpcode q code => cases sender; cases run; exact opcode _
  | surplusUnit q data => cases sender; cases run; exact unit data
  | replyUnitServed q data => cases sender; cases run; exact unit data
  | unitCut q bits => cases sender; cases run; exact cutUnit_safe sound (of_decide_eq_true formed)
  | _ => cases sender

/-! ## The commands of no port -/

theorem SafeAfter.guarded {P : Prop} {inst : Decidable P} {u : State} (acts : P → SafeAfter s u)
    (run : Host.Outcome.next (if P then u else s) = (.next t : Answer)) : SafeAfter s t := by
  cases run
  split
  · rename_i due; exact acts due
  · exact (NoStart.refl s).grantsWell

theorem exec_unsent_safe (sound : s.Sound) {i : Instr} (own : senderOf i = none) (run : exec i s = .next t) :
    SafeAfter s t := by
  have kept := State.TripsKept.of_sound sound
  have trips := kept.trips
  have control := sound.settled.controlled
  have calm := NoStart.refl s
  have same {t : State} (k : t.control = s.control) : t.Ready := (control.of_control k).ready
  have closed {k : Cause} {u : State} (acted : Acted s u) : SafeAfter s (closeEvent k s u) := acted.closes k s
  have aside {u : State} (cars : u.cars = s.cars) : SafeAfter s u := (NoStart.of_cars cars).grantsWell
  cases i with
  | carLinkTimeout c =>
    refine .guarded (fun _ => closed ?_) run
    exact ⟨calm.loseCarLink, same (loseCarLink_control s c), trips.loseCarLink⟩
  | supplyLinkTimeout => refine .guarded (fun _ => ?_) run; exact aside rfl
  | panelLinkTimeout => refine .guarded (fun _ => ?_) run; exact aside rfl
  | settleExpiry =>
    refine .guarded (fun due => closed ?_) run
    exact ⟨calm.settleExpires, same (settleExpires_control s), trips.settleExpires due.1⟩
  | returnTimerExpiry => refine .guarded (fun _ => ?_) run; exact aside rfl
  | recallSupervisionExpiry c =>
    refine .guarded (fun _ => closed ?_) run
    exact ⟨calm.recallExpires, same (recallExpires_control s c), trips.recallExpires⟩
  | startWindowExpiry => exact .guarded (fun _ => calm.startWindowExpires.grantsWell) run
  | panelWindowExpiry =>
    refine .guarded (fun _ => ?_) run
    exact (calm.endPanelHold.cars (u := (endPanelHold s).noticePanel .startOverdue) rfl).grantsWell
  | recoveryExpiry =>
    refine .guarded (fun due => closed ?_) run
    exact ⟨.of_cars rfl, same (t := openGate s) rfl, trips.openGate due.1⟩
  | fairnessExpiry =>
    refine .guarded (fun _ => closed ?_) run
    exact ⟨.of_cars rfl, same (t := { s with gate := { s.gate with fairness := none } }) rfl, trips.unfair⟩
  | headAgeExpiry =>
    refine .guarded (fun _ => closed ?_) run
    exact ⟨.of_cars rfl, same (t := { s with queue := { s.queue with headTimer := none, headAged := true } }) rfl,
      trips.parts rfl rfl rfl rfl (.refl _)⟩
  | shedSupervisionExpiry c =>
    refine .guarded (fun _ => closed ?_) run
    exact ⟨.of_cars rfl, control.shedExpires.ready, trips.parts rfl rfl rfl rfl (.refl _)⟩
  | storeProgrammingEnd =>
    refine .guarded (fun _ => closed ?_) run
    exact ⟨calm.programmingEnds, same (programmingEnds_control s), trips.programmingEnds⟩
  | reset =>
    cases run
    exact NoStart.grantsWell (.of_quiet (.of_reset rfl rfl rfl rfl) rfl)
  | resetRelease carsel single =>
    refine .guarded (fun _ => NoStart.grantsWell (.of_quiet ?_ rfl)) run
    exact .released s.store.nv carsel single s.ports s.now s.freeIx s.pending
  | _ => cases own

/-- Settles O58: a grant is made on an evaluated account within the limits, and what follows it in its command only
takes cars off the generator. -/
theorem grantsAreSafe : Obligations.GrantsAreSafe := by
  intro s t i c sound formed run was starts
  have safe : SafeAfter s t := by
    cases sender : senderOf i with
    | none => exact exec_unsent_safe sound sender run
    | some p => exact exec_sent_safe sound formed sender run
  obtain ⟨phase, link, headroom, feeders, step, gate, holder, powered⟩ := safe.granted c was starts
  exact ⟨phase, link, headroom, feeders, step, gate, holder, powered⟩

end Sys2Proof.Machine
end
